-- ==== Sys2Proof/Word.lean ====
section
/-! DEFINITION. The words of the LX-208: octets, sequence numbers, the 16-bit CRC registers, line numbers. -/

namespace Sys2Proof

/-- One octet of a record, a character or a cell. -/
abbrev Byte := BitVec 8

/-- A host-link sequence number, 0 to 63; arithmetic is modulo 64 (R150, R158). -/
abbrev Seq := BitVec 6

/-- A 16-bit CRC register or result (R62, R151). -/
abbrev Crc := BitVec 16

/-- A field-side line number, 0 to 7 (0.6). -/
abbrev LineNo := Fin 8

end Sys2Proof
end

