-- ==== Sys2Proof/Config.lean ====
section
/-! DEFINITION. What the part fixes: the sizes of Table 0.4 and the identification of R176, and the one value the spec leaves open. -/

namespace Sys2Proof.Config

/-- Cells of the Cell Store (R6). -/
abbrev cells : Nat := 2048

/-- Data octets of one cell (R1). -/
abbrev cellOctets : Nat := 32

/-- Frame records of the Frame Record Table (R15). -/
abbrev frameRecords : Nat := 384

/-- Reject slots of the Segment Handler (R30). -/
abbrev rejectSlots : Nat := 16

/-- Places of the reply queue (R173). -/
abbrev replyPlaces : Nat := 16

/-- Slots of the inbound buffer (R160). -/
abbrev inboundSlots : Nat := 8

/-- The most records the retain list holds (R162). -/
abbrev retainSlots : Nat := 8

/-- The most data octets of a frame (R32, R82). -/
abbrev maxFrame : Nat := 1024

/-- The most data octets of a TX_SEGMENT (R25). -/
abbrev maxSegment : Nat := 240

/-- The most entries of one TX_DONE record (R132). -/
abbrev doneEntries : Nat := 12

/-- The octet at which a gap-framing frame is LONG (R76). -/
abbrev longOctets : Nat := 1027

/-- The most payload octets of a host record (R152). -/
abbrev maxPayload : Nat := 256

/-- The value at which every counter and age stops (0.6, R12). -/
abbrev saturation : Nat := 65535

/-- Part code (R176). -/
abbrev partCode : Nat := 0x0208

/-- Revision (R176). -/
abbrev revision : Nat := 0x02

/-- Number of lines (R176). -/
abbrev lineCount : Nat := 8

/-- FREE VALUE (assumption log 3): the two octets that QUERY_LINE reports as the drain time remaining when
65536 ticks are still to come, a number the two-octet field of Table 10.11 cannot hold. -/
opaque drainTimeOverflow : Nat → BitVec 16

end Sys2Proof.Config
end

