-- ==== Sys2Proof/Syntax.lean ====
section
/-! DEFINITION. The commands of the block: one constructor of Instr for each row of spec/opcode_table.json. -/

namespace Sys2Proof

/-- The header fields and the payload of a checked host record (R150, R187); its type is the row's, or the
kind below.  The octets are as received, so values outside 0 to 63 or 0 to 8 can be written. -/
structure HostRecord where
  /-- the send sequence octet -/
  seq : Byte
  /-- the acknowledge octet -/
  ack : Byte
  /-- the room octet -/
  room : Byte
  /-- the payload octets, 0 to 256 of them -/
  payload : List Byte
  deriving DecidableEq, Repr

/-- The eight bits of an octet as sampled on LRXDn, in the order they came, true for marking, which is 1 (R75, R81). -/
abbrev OctetBits := Vector Bool 8

/-- A line and bits sampled on its LRXDn, in the order they came, true for marking, which is 1 (R81). -/
structure LineBits where
  line : LineNo
  bits : List Bool
  deriving DecidableEq, Repr

/-- The two kinds of host sequenced record (Table 8.2). -/
inductive SequencedKind where
  /-- a COMMAND record, code 10h -/
  | command
  /-- a TX_SEGMENT record, code 20h -/
  | txSegment
  deriving DecidableEq, Repr

/-- The steps of the LX-208: spec/opcode_table.json, row by row, in its order.

A command of the host and a TX_SEGMENT reach the block as octets of a record (hostSequencedRecord) and wait in
the inbound buffer; their rows are the event of their EXECUTION at its head, so those constructors carry no operand:
the operands are in the record at the head (R25, R171).  A line event carries its line and what came with it. -/
inductive Instr where
  /-- POWER_ON_RESET: RST# returns high or the supply rises, with the HRATE1 and HRATE0 straps at these levels (R149, R182). -/
  | powerOnReset (hrate1 hrate0 : Bool)
  /-- TICK: the Millisecond Time Base ticks (R184). -/
  | tick
  /-- RECEIVE_RECORD_ERROR: a host record ends in error; octets are those collected after its start octet, and
  badCharacter says that a character with a framing error ended it (R152). -/
  | receiveRecordError (octets : List Byte) (badCharacter : Bool)
  /-- HELLO: a checked HELLO record (R155, R156). -/
  | hello (r : HostRecord)
  /-- HOST_ACK: a checked host ACK record (R161). -/
  | hostAck (r : HostRecord)
  /-- HOST_NAK: a checked host NAK record (R163). -/
  | hostNak (r : HostRecord)
  /-- HOST_SEQUENCED_RECORD: a checked COMMAND or TX_SEGMENT record (R158). -/
  | hostSequencedRecord (kind : SequencedKind) (r : HostRecord)
  /-- TX_SEGMENT: the Segment Handler executes the record at the head of the inbound buffer (R25). -/
  | txSegment
  /-- UNKNOWN_COMMAND: a COMMAND at the head with no octet or an unknown code is executed (R172). -/
  | unknownCommand
  /-- IDENTIFY at the head is executed (R176). -/
  | identify
  /-- SET_DEVICE at the head is executed (R177). -/
  | setDevice
  /-- QUERY_DEVICE at the head is executed (R178). -/
  | queryDevice
  /-- RESET_DEVICE at the head is executed (R180). -/
  | resetDevice
  /-- OPEN_LINE at the head is executed (R112). -/
  | openLine
  /-- CLOSE_LINE at the head is executed (R116, R121). -/
  | closeLine
  /-- QUERY_LINE at the head is executed (R125). -/
  | queryLine
  /-- ACK_CONDITION at the head is executed (R101). -/
  | ackCondition
  /-- SEND_BREAK at the head is executed (R66). -/
  | sendBreak
  /-- SEEK_LINE at the head is executed (R84). -/
  | seekLine
  /-- CANCEL_FRAME at the head is executed (R43). -/
  | cancelFrame
  /-- REDIRECT at the head is executed (R45, R46). -/
  | redirect
  /-- SET_LINE at the head is executed (R113). -/
  | setLine
  /-- LEADIN_END: the last lead-in pattern ends, or the pattern in progress of an aborted lead-in (R61, R64). -/
  | leadinEnd (n : LineNo)
  /-- DATA_OCTET_BOUNDARY: the transmitter reaches a data octet boundary (R63). -/
  | dataOctetBoundary (n : LineNo)
  /-- FRAME_END: the second CRC octet of TRAILER ends (R65). -/
  | frameEnd (n : LineNo)
  /-- GAP_END: the GAP after a frame or a break ends (R59, R61). -/
  | gapEnd (n : LineNo)
  /-- BREAK_TIMER_EXPIRY: the break timer expires (R67). -/
  | breakTimerExpiry (n : LineNo)
  /-- TURNAROUND_TIMER_EXPIRY: the turnaround timer expires (R57). -/
  | turnaroundTimerExpiry (n : LineNo)
  /-- EXPIRY: the line judges the ages of its queued frames at a tick (R40, R41). -/
  | expiry (n : LineNo)
  /-- DRAIN_TIMER_EXPIRY: the drain timer expires (R120). -/
  | drainTimerExpiry (n : LineNo)
  /-- CLEAR_CHANGE: LCLRn takes this level (R56, R97). -/
  | clearChange (n : LineNo) (high : Bool)
  /-- CARRIER_CHANGE: LCARn takes this level (R87, R97). -/
  | carrierChange (n : LineNo) (high : Bool)
  /-- CHARACTER_START: a character start on LRXDn in gap framing (R75, R76). -/
  | characterStart (n : LineNo)
  /-- CHARACTER_COMPLETE: a character completes on LRXDn; its samples after the start bit: 8 data bits, the parity bit (there is
  none under NONE, and the operand is not read), the first stop bit (R75, R76, R79). -/
  | characterComplete (n : LineNo) (data : OctetBits) (parityBit stopBit : Bool)
  /-- RECEIVE_GAP: a gap of g character times on LRXDn (R77, R78). -/
  | receiveGap (n : LineNo)
  /-- BREAK_DETECTED: LRXDn has stayed spacing for a further character time behind the last character (R79). -/
  | breakDetected (n : LineNo)
  /-- LINE_RETURNS_TO_MARKING: LRXDn returns to marking, during BREAK or behind a null character (R79). -/
  | lineReturnsToMarking (n : LineNo)
  /-- PATTERN_MATCH: in SEEK the last 16 bits match the sync pattern; the line with the bits that the search has taken, of which
  the last completes the match (R81). -/
  | patternMatch (seen : LineBits)
  /-- PAIR: an octet pair is complete in SYNCED, its high octet first (R81, R82). -/
  | pair (n : LineNo) (high low : OctetBits)
  /-- SYNC_OCTET: an octet is complete in sync ASSEMBLING or DISCARD (R81, R83). -/
  | syncOctet (n : LineNo) (bits : OctetBits)
  /-- RETRANSMISSION_TIMER_EXPIRY (R165). -/
  | retransmissionTimerExpiry
  /-- SILENCE_TIMER_EXPIRY (R166). -/
  | silenceTimerExpiry
  /-- SENDING_END: the last CRC octet of a record has left HTXD (R168). -/
  | sendingEnd
  /-- RST_ASSERTED: RST# falls low (R182). -/
  | rstAsserted
  deriving DecidableEq, Repr

end Sys2Proof
end

