-- ==== Sys2Proof/Machine/Codec.lean ====
section
/-! DEFINITION. Octets, the line CRC, the record CRC, and the octets of a host record on HRXD with their judgment. -/

namespace Sys2Proof.Machine

/-- A one-octet field (R186). -/
def octet (v : Nat) : Byte := BitVec.ofNat 8 v

/-- A two-octet field, low octet first (R186). -/
def octets16 (v : Nat) : List Byte := [octet v, octet (v / 256)]

/-- The value of a two-octet field whose low octet comes first (R186). -/
def word16 (low high : Byte) : Nat := low.toNat + 256 * high.toNat

/-- The value of an octet pair whose high octet comes first (R61, R82). -/
def pairValue (high low : Byte) : Nat := 256 * high.toNat + low.toNat

/-- The two octets of a 16-bit value, high octet first, as a line carries them (R61, R62). -/
def highFirst (v : Nat) : List Byte := [octet (v / 256), octet v]

/-- A named bit of a bit-set field (R186). -/
def bitOf (i : Nat) (on : Bool) : Nat := if on then 2 ^ i else 0

/-! ## The line CRC (R62) -/

/-- One shift of the line CRC register: generator polynomial x^16 + x^15 + x^2 + 1. -/
def lineCrcShift (r : Crc) : Crc := if r.msb then (r <<< 1) ^^^ 0x8005#16 else r <<< 1

/-- The register after k shifts. -/
def lineCrcShifts : Nat → Crc → Crc
  | 0, r => r
  | k + 1, r => lineCrcShifts k (lineCrcShift r)

/-- The register after one covered octet, most significant bit first (R62). -/
def lineCrcOctet (r : Crc) (b : Byte) : Crc := lineCrcShifts 8 (r ^^^ (b.setWidth 16 <<< 8))

/-- The register after these octets, from this value. -/
def lineCrcFrom (r : Crc) (bs : List Byte) : Crc := bs.foldl lineCrcOctet r

/-- The value the register is set to when a frame is taken or begins (R62, R85). -/
def lineCrcInit : Crc := 0xFFFF#16

/-- The line CRC of these octets (R62). -/
def lineCrc (bs : List Byte) : Crc := lineCrcFrom lineCrcInit bs

/-! ## The record CRC (R151) -/

/-- One shift of the record CRC register, least significant bit first: generator polynomial x^16 + x^12 + x^5 + 1 with the
register read in the order the bits come (DEDUCED, assumption log 9). -/
def recordCrcShift (r : Crc) : Crc := if r.getLsbD 0 then (r >>> 1) ^^^ 0x8408#16 else r >>> 1

/-- The register after k shifts. -/
def recordCrcShifts : Nat → Crc → Crc
  | 0, r => r
  | k + 1, r => recordCrcShifts k (recordCrcShift r)

/-- The register after one covered octet, least significant bit first (R151). -/
def recordCrcOctet (r : Crc) (b : Byte) : Crc := recordCrcShifts 8 (r ^^^ b.setWidth 16)

/-- The record CRC of the header and payload octets (R151). -/
def recordCrc (bs : List Byte) : Crc := bs.foldl recordCrcOctet 0xFFFF#16

/-! ## Record octets (R150, Table 10.2) -/

/-- The start octet of every record. -/
def startOctet : Byte := 0xC3#8

/-- The six header octets and the payload (R150, Table 10.2). -/
def coveredOctets (type seq ack room : Byte) (payload : List Byte) : List Byte :=
  [type, seq, ack, room] ++ octets16 payload.length ++ payload

/-- The octets after the start octet: header, payload and record CRC low octet first (R150, R151). -/
def recordOctets (type seq ack room : Byte) (payload : List Byte) : List Byte :=
  let covered := coveredOctets type seq ack room payload
  covered ++ octets16 (recordCrc covered).toNat

/-- The types of host records (Table 8.2). -/
inductive HostType where
  | hello | ack | nak | command | txSegment
  deriving DecidableEq, Repr

/-- The type codes of host records (Table 10.3). -/
def HostType.code : HostType → Byte
  | .hello => 0x01#8
  | .ack => 0x02#8
  | .nak => 0x03#8
  | .command => 0x10#8
  | .txSegment => 0x20#8

/-- The host type a code names; every other code is an unknown type (R150). -/
def HostType.ofCode (b : Byte) : Option HostType :=
  if b = 0x01#8 then some .hello
  else if b = 0x02#8 then some .ack
  else if b = 0x03#8 then some .nak
  else if b = 0x10#8 then some .command
  else if b = 0x20#8 then some .txSegment
  else none

/-- The octets of a host record after its start octet. -/
def hostOctets (t : HostType) (r : HostRecord) : List Byte := recordOctets t.code r.seq r.ack r.room r.payload

/-- What the octets collected after a start octet amount to (R152). -/
inductive RecordVerdict where
  /-- the record has not ended with these octets -/
  | incomplete
  /-- the record ended before the last of these octets -/
  | beyond
  /-- the record ends here and is discarded: payload length above 256, failed CRC or unknown type -/
  | failed
  /-- the record ends here and is a checked record -/
  | checked (t : HostType) (r : HostRecord)
  deriving DecidableEq, Repr

/-- The three steps of R152, for a record that ends with the last of these octets. -/
def recordVerdict : List Byte → RecordVerdict
  | type :: seq :: ack :: room :: lenLow :: lenHigh :: rest =>
    let len := word16 lenLow lenHigh
    if Config.maxPayload < len then
      if rest = [] then .failed else .beyond
    else if rest.length = len + 2 then
      let payload := rest.take len
      if octets16 (recordCrc (coveredOctets type seq ack room payload)).toNat = rest.drop len then
        match HostType.ofCode type with
        | some t => .checked t { seq := seq, ack := ack, room := room, payload := payload }
        | none => .failed
      else .failed
    else if rest.length < len + 2 then .incomplete
    else .beyond
  | _ => .incomplete

/-- The octets after the first start octet among these, or none: the search of R152. -/
def afterStart : List Byte → Option (List Byte)
  | [] => none
  | b :: rest => if b = startOctet then some rest else afterStart rest

end Sys2Proof.Machine
end

