-- ==== Sys2Proof/WellFormed.lean ====
section
/-! DEFINITION. The terms of Instr that can come about: what the operand types alone do not say. -/

namespace Sys2Proof

/-- A checked record has at most 256 payload octets: more ends the record in error (R152). -/
def HostRecord.wf (r : HostRecord) : Bool := decide (r.payload.length ≤ Config.maxPayload)

/-- The octets of RECEIVE_RECORD_ERROR end a record in error: by a character with a framing error while the record has not
ended, or at one of the three steps of R152. -/
def recordErrorWf (octets : List Byte) (badCharacter : Bool) : Bool :=
  if badCharacter then decide (Machine.recordVerdict octets = .incomplete)
  else decide (Machine.recordVerdict octets = .failed)

/-- The bits of PATTERN_MATCH hold at least the 16 that match (R81). -/
def LineBits.wf (seen : LineBits) : Bool := decide (16 ≤ seen.bits.length)

/-- Well-formed commands. -/
def Instr.wf : Instr → Bool
  | .receiveRecordError octets badCharacter => recordErrorWf octets badCharacter
  | .hello r => r.wf
  | .hostAck r => r.wf
  | .hostNak r => r.wf
  | .hostSequencedRecord _ r => r.wf
  | .powerOnReset _ _ => true
  | .tick => true
  | .txSegment => true
  | .unknownCommand => true
  | .identify => true
  | .setDevice => true
  | .queryDevice => true
  | .resetDevice => true
  | .openLine => true
  | .closeLine => true
  | .queryLine => true
  | .ackCondition => true
  | .sendBreak => true
  | .seekLine => true
  | .cancelFrame => true
  | .redirect => true
  | .setLine => true
  | .leadinEnd _ => true
  | .dataOctetBoundary _ => true
  | .frameEnd _ => true
  | .gapEnd _ => true
  | .breakTimerExpiry _ => true
  | .turnaroundTimerExpiry _ => true
  | .expiry _ => true
  | .drainTimerExpiry _ => true
  | .clearChange _ _ => true
  | .carrierChange _ _ => true
  | .characterStart _ => true
  | .characterComplete _ _ _ _ => true
  | .receiveGap _ => true
  | .breakDetected _ => true
  | .lineReturnsToMarking _ => true
  | .patternMatch seen => seen.wf
  | .pair _ _ _ => true
  | .syncOctet _ _ => true
  | .retransmissionTimerExpiry => true
  | .silenceTimerExpiry => true
  | .sendingEnd => true
  | .rstAsserted => true

end Sys2Proof
end

