-- ==== Sys2Proof/Machine/State.lean ====
section
/-! DEFINITION. The state of the LX-208 as plain data, the two reason types of a step, and the state after power-on reset. -/

namespace Sys2Proof.Machine

/-! ## Cell Store and Frame Record Table (Chapter 1) -/

/-- A cell in the chain of a frame: its index and its fill count, 1 to 32 (R1).  Its next link is the cell that follows it
in the chain, or none for the last (R2); a cell in no chain is in the free cell pool with fill count 0 and no link. -/
structure ChainCell where
  cell : Nat
  fill : Nat
  deriving DecidableEq, Repr

/-- Kind of a frame record (Table 1.4). -/
inductive FrameKind where
  | tx | rx
  deriving DecidableEq, Repr

/-- States of a frame record: five of kind TX (Table 1.8), four of kind RX (Table 1.9). -/
inductive FrameState where
  | filling | ready | sending | discarding | done
  | assembling | queued | delivering | sent
  deriving DecidableEq, Repr

/-- Outcomes: OK of both kinds, six more of a TX record, three more of an RX record (R14, Table 10.16). -/
inductive FrameOutcome where
  | ok
  | underrun | length | nospace | expired | cancelled | flushed
  | crc | parity | framing
  deriving DecidableEq, Repr

/-- Priority of a TX record, which decides its queue (R37). -/
inductive Priority where
  | urgent | normal
  deriving DecidableEq, Repr

/-- An allocated frame record: the common fields of Table 1.4, the TX fields of Table 1.5 and the RX fields of Table 1.6.  A
field that has no meaning for the record's kind holds its allocation value (1.3). -/
structure FrameRecord where
  kind : FrameKind
  state : FrameState
  line : LineNo
  /-- the chain, first cell to last (R2) -/
  chain : List ChainCell := []
  /-- stored length, 0 to 1026 -/
  stored : Nat := 0
  /-- none: absent (R14) -/
  outcome : Option FrameOutcome := none
  priority : Priority := .normal
  tag : Nat := 0
  /-- declared length; none: absent -/
  declared : Option Nat := none
  complete : Bool := false
  age : Nat := 0
  sentCount : Nat := 0
  reported : Bool := false
  number : Nat := 0
  lossMark : Bool := false
  /-- delivery cursor -/
  cursor : Nat := 0
  resent : Bool := false
  deriving DecidableEq, Repr

/-- The Cell Store and the Frame Record Table (R5, R6, R15). -/
structure Store where
  /-- the free cell pool, a FIFO, head first (R6) -/
  freeCells : List Nat
  /-- the data octets of the cells: address 32 × cell + position (R1) -/
  octets : List Host.Cell
  /-- the allocated frame records by index; an index not listed is in the free record pool (R15) -/
  frames : List (Nat × FrameRecord)
  deriving DecidableEq, Repr

/-! ## Segment Handler and Completion List (Chapter 2) -/

/-- Statuses of a rejected first segment (Table 2.1). -/
inductive RejectStatus where
  | lineClosed | tagClash | queueFull | length | noRecord
  deriving DecidableEq, Repr

/-- A reject slot in use (R29). -/
structure RejectSlot where
  tag : Nat
  /-- the line field exactly as sent, 0 to 255 -/
  line : Nat
  status : RejectStatus
  reported : Bool
  deriving DecidableEq, Repr

/-- A completion entry: a reference to a TX record in DONE or to a reject slot in use (R48). -/
inductive EntryRef where
  | frame (index : Nat)
  | reject (slot : Nat)
  deriving DecidableEq, Repr

/-! ## Line Engines (Chapters 3 to 6) -/

/-- Transmitter states (Table 3.1). -/
inductive TxState where
  | off | idle | held | leadin | data | trailer | gap | breaking
  deriving DecidableEq, Repr

/-- Receiver states (Table 4.1). -/
inductive RxState where
  | off | gated | muted | discard | idle | breaking | seek | synced | assembling
  deriving DecidableEq, Repr

/-- Line states (R108). -/
inductive LineState where
  | closed | opened | closing
  deriving DecidableEq, Repr

/-- Parity of a gap-framing line (Table 6.2). -/
inductive Parity where
  | none | even | odd
  deriving DecidableEq, Repr

/-- Clock source of a sync-framing line (R60). -/
inductive ClockSource where
  | line | internal
  deriving DecidableEq, Repr

/-- The framing of a line with the parameters that apply to it alone; the others are not kept (R110). -/
inductive Framing where
  | gap (parity : Parity) (stopBits : Nat) (gap : Nat)
  | sync (clock : ClockSource) (pattern : Nat) (leadIn : Nat)
  deriving DecidableEq, Repr

/-- The duplex of a line; the turnaround, in ms, applies in half duplex alone (R110). -/
inductive Duplex where
  | full
  | half (turnaround : Nat)
  deriving DecidableEq, Repr

/-- REQUEST mode (R69). -/
inductive RequestMode where
  | line | frame
  deriving DecidableEq, Repr

/-- The parameters of a line (Table 6.2). -/
structure LineConfig where
  framing : Framing
  rateCode : Nat
  duplex : Duplex
  gateTx : Bool
  gateRx : Bool
  requestMode : RequestMode
  deliverErrors : Bool
  reportConditions : Bool
  /-- receive quota -/
  quota : Nat
  /-- transmit frame limit -/
  limit : Nat
  weight : Nat
  lifetime : Nat
  /-- cut-through threshold -/
  threshold : Nat
  deriving DecidableEq, Repr

/-- A pending break with the command tag its deferred reply echoes (R66, R175). -/
structure PendingBreak where
  tag : Byte
  duration : Nat
  deriving DecidableEq, Repr

/-- The Line Transmitter and the Transmit Queues of one line (Chapters 2 and 3).  A timer is none while stopped; some k
while k ticks are still to come; some 0 once the tick at which it expires has come and its expiry is to be taken. -/
structure Transmitter where
  state : TxState
  /-- URGENT queue, head first -/
  urgent : List Nat
  /-- NORMAL queue, head first -/
  normal : List Nat
  /-- the current frame (R51) -/
  current : Option Nat
  /-- read position in the chain (R55) -/
  readPos : Nat
  /-- CRC register (R62) -/
  crc : Crc
  /-- the data octet going onto the line, none between octets and during the length field -/
  octet : Option Byte
  /-- the CRC sent in TRAILER, normal or inverted (R63) -/
  trailer : Crc
  /-- the GAP follows a break, not a frame (R69) -/
  gapAfterBreak : Bool
  pendingBreak : Option PendingBreak
  breakTimer : Option Nat
  turnaroundTimer : Option Nat
  /-- a tick has come and the line's judgment of ages at it is still to be taken (R40; model's own) -/
  expiryDue : Bool
  deriving DecidableEq, Repr

/-- How far the reading of characters on LRXDn is (R75, R79). -/
inductive CharacterPhase where
  /-- for a start bit -/
  | waiting
  /-- a character has started and is not complete -/
  | inProgress
  /-- for a start bit, behind a null character with a framing error; LRXDn has stayed spacing since -/
  | heldSpacing
  deriving DecidableEq, Repr

/-- The Line Receiver and the receive queue of one line (Chapter 4), with the working values of R72. -/
structure Receiver where
  state : RxState
  /-- the frame in assembly -/
  current : Option Nat
  /-- octets received in the frame -/
  count : Nat
  framingError : Bool
  parityError : Bool
  /-- the length read from the length field -/
  length : Nat
  /-- octets still to come in sync ASSEMBLING, or to consume in sync DISCARD -/
  toCome : Nat
  crc : Crc
  /-- the first of the two CRC octets of a sync frame -/
  crcHigh : Byte
  patternRequired : Bool
  character : CharacterPhase
  /-- frame number counter (R92) -/
  nextNumber : Nat
  /-- pending-loss flag (R91) -/
  pendingLoss : Bool
  /-- the receive queue, head first (R94) -/
  queue : List Nat
  deriving DecidableEq, Repr

/-- One value, on or off, for each of the four conditions (Table 5.1). -/
structure Conditions where
  carrier : Bool
  clear : Bool
  breaking : Bool
  synced : Bool
  deriving DecidableEq, Repr

/-- The Condition Group of one line (5.2). -/
structure ConditionGroup where
  snapshot : Conditions
  latched : Bool
  reportPending : Bool
  deriving DecidableEq, Repr

/-- Transmit mode of a close (R115). -/
inductive TxMode where
  | drain | flush
  deriving DecidableEq, Repr

/-- Receive mode of a close (R115). -/
inductive RxMode where
  | deliver | discard
  deriving DecidableEq, Repr

/-- What a line keeps for its close: modes, drain timer, tallies and CLOSED-report flag (R115, R120, R123).  Cleared modes
are DRAIN and DELIVER, as QUERY_LINE reports them. -/
structure CloseState where
  txMode : TxMode
  rxMode : RxMode
  drainTimer : Option Nat
  completed : Nat
  flushed : Nat
  discarded : Nat
  reportPending : Bool
  deriving DecidableEq, Repr

/-- The per-line counters (Table 6.6). -/
structure LineCounters where
  txFrames : Nat
  txAborts : Nat
  rxFrames : Nat
  rxErrors : Nat
  rxLost : Nat
  deriving DecidableEq, Repr

/-- One line: its pins, state, parameters, Line Engine and counters. -/
structure Line where
  state : LineState
  config : LineConfig
  tx : Transmitter
  rx : Receiver
  group : ConditionGroup
  close : CloseState
  counters : LineCounters
  /-- the level of LCARn, which live CARRIER follows (R97) -/
  carrier : Bool
  /-- the level of LCLRn, which live CLEAR follows (R97) -/
  clear : Bool
  deriving DecidableEq, Repr

/-! ## Command Interpreter (Chapter 9) -/

/-- Reply statuses (Table 9.1). -/
inductive ReplyStatus where
  | ok | badFormat | unknownCommand | badLine | badValue | wrongState | notFound | busy | aborted
  deriving DecidableEq, Repr

/-- A reply: command code, command tag, status and result octets (R172, R173). -/
structure Reply where
  code : Byte
  tag : Byte
  status : ReplyStatus
  results : List Byte
  deriving DecidableEq, Repr

/-- An entry of the reply queue: unsent, or carried by the REPLY record of this send sequence (R130). -/
structure ReplyEntry where
  reply : Reply
  carriedBy : Option Seq
  deriving DecidableEq, Repr

/-! ## Host Link Controller (Chapter 8) -/

/-- Link states (R153). -/
inductive LinkState where
  | down | up
  deriving DecidableEq, Repr

/-- The pending link-control item (R157). -/
inductive LinkItem where
  | none | resync | welcome
  deriving DecidableEq, Repr

/-- Reset causes (R157). -/
inductive ResetCause where
  | power | command | link
  deriving DecidableEq, Repr

/-- Host-link rates in bit/s (Table 8.1). -/
inductive HostRate where
  | r115200 | r460800 | r921600 | r3000000
  deriving DecidableEq, Repr

/-- Reception on HRXD (R152).  In reading, the octets after the start octet that are already there: those searched again
after a record ended in error. -/
inductive Reception where
  | searching
  | reading (collected : List Byte)
  deriving DecidableEq, Repr

/-- What a retained record holds of its content (Table 7.4).  A REPLY record refers to the reply queue entry that is carried
by its sequence number. -/
inductive Content where
  | reply
  | condition (n : LineNo) (snapshot : Conditions)
  | txDone (entries : List EntryRef)
  | closed (n : LineNo) (completed flushed discarded : Nat)
  | rxSegment (frame offset length : Nat) (first last lossBefore resent : Bool)
  deriving DecidableEq, Repr

/-- A record of the retain list (R140, R162). -/
structure Retained where
  seq : Seq
  content : Content
  deriving DecidableEq, Repr

/-- Types of the records the part sends (Table 8.2). -/
inductive PartType where
  | welcome | ack | nak | resync | reply | rxSegment | txDone | condition | closed
  deriving DecidableEq, Repr

/-- A record being sent on HTXD: its header and payload, fixed when its sending begins (R168). -/
structure PartRecord where
  type : PartType
  seq : Seq
  ack : Seq
  room : Nat
  payload : List Byte
  deriving DecidableEq, Repr

/-- A record in a slot of the inbound buffer, as received (R158). -/
structure InboundRecord where
  kind : SequencedKind
  payload : List Byte
  deriving DecidableEq, Repr

/-- The Host Link Controller. -/
structure HostLink where
  state : LinkState
  /-- V(S) -/
  vS : Seq
  /-- V(A) -/
  vA : Seq
  /-- V(R) -/
  vR : Seq
  /-- the retain list, oldest first (R162) -/
  retain : List Retained
  /-- the resend cursor (R164) -/
  cursor : Option Seq
  retryCount : Nat
  retransTimer : Option Nat
  silenceTimer : Option Nat
  /-- the inbound buffer, head first (R160) -/
  inbound : List InboundRecord
  /-- the record at the head has been taken and stalls (R30, R174) -/
  headStalled : Bool
  /-- host grant (R161) -/
  grantBase : Seq
  grantRoom : Nat
  /-- NAK-sent flag (R159) -/
  nakSent : Bool
  /-- a NAK is pending (R159) -/
  nakPending : Bool
  /-- acknowledgement-owed flag (R169) -/
  ackOwed : Bool
  item : LinkItem
  resetCause : ResetCause
  /-- retransmission timeout in units of 10 ms (R155) -/
  retransTimeout : Nat
  retryLimit : Nat
  /-- silence timeout in units of 100 ms, 0 for none (R155) -/
  silenceTimeout : Nat
  /-- maximum RX segment size S (R138) -/
  segmentSize : Nat
  rate : HostRate
  reception : Reception
  /-- the record the serializer is sending; none when it is free (R168) -/
  sending : Option PartRecord
  roomLastSent : Nat
  crcErrors : Nat
  naksSent : Nat
  retransmissions : Nat
  drops : Nat
  ackErrors : Nat
  deriving DecidableEq, Repr

/-- The state of the part, and the commands that wait to be taken. -/
structure State where
  /-- the eight lines -/
  lines : Vector Line 8
  store : Store
  /-- the Tag Map: tag to index of its TX record (R21) -/
  tags : List (Nat × Nat)
  /-- the reject slots in use, by number (R30) -/
  rejects : List (Nat × RejectSlot)
  /-- the Completion List, head first (R48) -/
  completion : List EntryRef
  /-- the reply queue, head first (R173) -/
  replies : List ReplyEntry
  reserveFloor : Nat
  recordReserve : Nat
  /-- STRAY_SEGMENTS (R179) -/
  straySegments : Nat
  /-- round-robin pointer (R135) -/
  pointer : LineNo
  /-- turn count (R135) -/
  turnCount : Nat
  link : HostLink
  /-- RST# is low (R182) -/
  rstLow : Bool
  /-- the commands that wait, first in, first out (model's own) -/
  pending : List Instr
  deriving DecidableEq, Repr

/-- Reasons for which the part stops.  The spec describes no event after which the part stops: there is none. -/
inductive Fault where
  deriving DecidableEq, Repr

/-- Reasons for which a command has no meaning. -/
inductive Refusal where
  /-- Raised by an arm of exec that has no meaning yet, of which there is none; safe, since nothing follows from it. -/
  | notModelled (mnemonic : String)
  deriving DecidableEq, Repr

/-! ## Reset (R52, R73, R98, R125, R126, R148, R153, R182) -/

/-- All four conditions off. -/
def Conditions.cleared : Conditions := { carrier := false, clear := false, breaking := false, synced := false }

/-- The parameters of a line never opened: SET_LINE values of R125; GAP and FULL; the rest of them, which take no part while
the line is CLOSED, by assumption log 4. -/
def LineConfig.reset : LineConfig :=
  { framing := .gap .none 1 2, rateCode := 0, duplex := .full, gateTx := false, gateRx := false, requestMode := .line
    deliverErrors := false, reportConditions := false, quota := 8, limit := 32, weight := 1, lifetime := 0, threshold := 0 }

/-- A transmitter in OFF with empty queues (R37, R52). -/
def Transmitter.reset : Transmitter :=
  { state := .off, urgent := [], normal := [], current := none, readPos := 0, crc := 0xFFFF#16, octet := none
    trailer := 0#16, gapAfterBreak := false, pendingBreak := none, breakTimer := none, turnaroundTimer := none
    expiryDue := false }

/-- A receiver in OFF with an empty receive queue (R73). -/
def Receiver.reset : Receiver :=
  { state := .off, current := none, count := 0, framingError := false, parityError := false, length := 0, toCome := 0
    crc := 0xFFFF#16, crcHigh := 0#8, patternRequired := false, character := .waiting, nextNumber := 0
    pendingLoss := false, queue := [] }

/-- A FREE group with a cleared snapshot and its flag clear (R98). -/
def ConditionGroup.reset : ConditionGroup := { snapshot := .cleared, latched := false, reportPending := false }

/-- No close and no tallies (R126). -/
def CloseState.reset : CloseState :=
  { txMode := .drain, rxMode := .deliver, drainTimer := none, completed := 0, flushed := 0, discarded := 0
    reportPending := false }

/-- The five counters at 0 (R124). -/
def LineCounters.zero : LineCounters := { txFrames := 0, txAborts := 0, rxFrames := 0, rxErrors := 0, rxLost := 0 }

/-- A line in its reset state with its input pins at these levels (R126; R106 for the pins). -/
def Line.reset (carrier clear : Bool) : Line :=
  { state := .closed, config := .reset, tx := .reset, rx := .reset, group := .reset, close := .reset, counters := .zero
    carrier := carrier, clear := clear }

/-- The Cell Store and Frame Record Table after a reset, with these data octets left in the cells (R1, R23). -/
def Store.reset (octets : List Host.Cell) : Store :=
  { freeCells := List.range Config.cells, octets := octets, frames := [] }

/-- The Host Link Controller after power-on reset (Table 8.3, R182), before the serializer begins the RESYNC. -/
def HostLink.powerOn (rate : HostRate) : HostLink :=
  { state := .down, vS := 0, vA := 0, vR := 0, retain := [], cursor := none, retryCount := 0, retransTimer := none
    silenceTimer := none, inbound := [], headStalled := false, grantBase := 0, grantRoom := 0, nakSent := false
    nakPending := false, ackOwed := false, item := .resync, resetCause := .power, retransTimeout := 20, retryLimit := 4
    silenceTimeout := 20, segmentSize := 240, rate := rate, reception := .searching, sending := none, roomLastSent := 8
    crcErrors := 0, naksSent := 0, retransmissions := 0, drops := 0, ackErrors := 0 }

/-- The RESYNC record the serializer, free after power-on reset, begins to send (R157, R168, R182): V(R) = 0, room 8. -/
def PartRecord.firstResync : PartRecord := { type := .resync, seq := 0, ack := 0, room := 8, payload := [] }

/-- The part right after power-on reset with its straps at this rate and these lines, and this command queue: every block as
R182 leaves it, and the RESYNC that was the pending link-control item begun by the serializer in the same event (R157: the
item becomes none when the serializer begins to send it). -/
def State.powerOn (rate : HostRate) (lines : Vector Line 8) (pending : List Instr) : State :=
  { lines := lines, store := .reset [], tags := [], rejects := [], completion := [], replies := [], reserveFloor := 256
    recordReserve := 16, straySegments := 0, pointer := 7, turnCount := 0
    link := { HostLink.powerOn rate with item := .none, sending := some .firstResync }
    rstLow := false, pending := pending }

/-- The machine right after power-on reset.  The straps and the sixteen line inputs are levels from outside: low here
(assumption log 5). -/
def State.reset : State := .powerOn .r115200 (Vector.replicate 8 (Line.reset false false)) []

end Sys2Proof.Machine
end

