-- ==== Sys2Proof/Machine/Table.lean ====
section
/-! DEFINITION. Sparse tables: lists of (key, value) pairs with strictly rising keys, in which the Cell Store's octets, the
Frame Record Table, the Tag Map and the reject slots are held. -/

namespace Sys2Proof.Machine

/-- The value listed under a key, or none. -/
def Table.get {α : Type} : List (Nat × α) → Nat → Option α
  | [], _ => none
  | (j, v) :: rest, k => if j = k then some v else Table.get rest k

/-- The table with this value under this key, in the place the order of the keys gives it. -/
def Table.put {α : Type} : List (Nat × α) → Nat → α → List (Nat × α)
  | [], k, v => [(k, v)]
  | (j, w) :: rest, k, v =>
    if k < j then (k, v) :: (j, w) :: rest
    else if k = j then (k, v) :: rest
    else (j, w) :: Table.put rest k v

/-- The table with nothing under this key. -/
def Table.del {α : Type} : List (Nat × α) → Nat → List (Nat × α)
  | [], _ => []
  | (j, v) :: rest, k => if j = k then Table.del rest k else (j, v) :: Table.del rest k

/-- The canonical form: the keys rise strictly. -/
abbrev Table.wf {α : Type} (t : List (Nat × α)) : Prop := t.Pairwise (fun a b => a.1 < b.1)

/-- The lowest of the keys 0 to size − 1 under which nothing is listed (R15, R30). -/
def Table.lowestFree {α : Type} (t : List (Nat × α)) (size : Nat) : Option Nat :=
  (List.range size).find? (fun k => (Table.get t k).isNone)

end Sys2Proof.Machine
end

