-- ==== Sys2Proof/Machine/Ops.lean ====
section
/-! DEFINITION. The named operations over lines, cells, chains, frame records, counters, timers and the reply queue. -/

namespace Sys2Proof.Machine

/-! ## Parts of the state -/

/-- Line n. -/
def State.line (s : State) (n : LineNo) : Line := s.lines[n]

/-- The state with line n changed by f. -/
def State.modLine (s : State) (n : LineNo) (f : Line → Line) : State :=
  { s with lines := s.lines.set n (f (s.line n)) }

/-- The eight line numbers in ascending order. -/
def lineNos : List LineNo := List.finRange 8

/-- The frame record of this index, none if it is free. -/
def State.frame (s : State) (i : Nat) : Option FrameRecord := Table.get s.store.frames i

/-- The state with this index holding this frame record. -/
def State.putFrame (s : State) (i : Nat) (r : FrameRecord) : State :=
  { s with store := { s.store with frames := Table.put s.store.frames i r } }

/-- The state with the frame record of this index, if allocated, changed by f. -/
def State.modFrame (s : State) (i : Nat) (f : FrameRecord → FrameRecord) : State :=
  match s.frame i with
  | none => s
  | some r => s.putFrame i (f r)

/-- The state with the host link changed by f. -/
def State.modLink (s : State) (f : HostLink → HostLink) : State := { s with link := f s.link }

/-! ## Counters and timers -/

/-- A 16-bit counter after one increment: it saturates at 65535 (0.6, R124). -/
def satInc (k : Nat) : Nat := if k < Config.saturation then k + 1 else k

/-- A millisecond timer started with a duration of d ms: d ticks are to come if it starts in the event of a tick, d + 1 if it
starts between two ticks (R185). -/
def startTimer (atTick : Bool) (d : Nat) : Option Nat := some (if atTick then d else d + 1)

/-- A timer after a tick; at 0 its expiry is to be taken (R185). -/
def tickTimer : Option Nat → Option Nat
  | none => none
  | some k => some (k - 1)

/-! ## The octets of the cells (R1) -/

/-- An octet of the Cell Store; a position never written reads as 0 (assumption log 6: no rule reads such a position). -/
def readOctet (m : List Host.Cell) (a : Nat) : Byte := (Table.get m a).getD 0

/-- The Cell Store after a write.  A position that reads as 0 is not listed. -/
def writeOctet (m : List Host.Cell) (a : Nat) (b : Byte) : List Host.Cell :=
  if b = 0 then Table.del m a else Table.put m a b

/-- The canonical form of the octets: addresses rise strictly, and no entry is 0. -/
abbrev Memory.wf (m : List Host.Cell) : Prop := Table.wf m ∧ ∀ c ∈ m, c.2 ≠ 0

/-- Address of a position of a cell. -/
def cellAddress (cell position : Nat) : Nat := Config.cellOctets * cell + position

/-! ## Cells and chains -/

/-- Kinds of cell claim (Table 1.1). -/
inductive CellClaim where
  | transmitData | receiveData
  deriving DecidableEq, Repr

/-- The free count (R6). -/
def State.freeCellCount (s : State) : Nat := s.store.freeCells.length

/-- A claim for a cell, decided at once (R7): the head cell of the pool and the state without it, or none if refused. -/
def claimCell (k : CellClaim) (s : State) : Option (Nat × State) :=
  match s.store.freeCells with
  | [] => none
  | c :: rest =>
    let taken := some (c, { s with store := { s.store with freeCells := rest } })
    match k with
    | .receiveData => taken
    | .transmitData => if s.reserveFloor < s.freeCellCount then taken else none

/-- The state with this octet at this position of this cell. -/
def State.writeCell (s : State) (cell position : Nat) (b : Byte) : State :=
  { s with store := { s.store with octets := writeOctet s.store.octets (cellAddress cell position) b } }

/-- Appending one octet to the chain of a frame (R3), with a claim when the chain is empty or its last cell is full; none if
that claim is refused, and then nothing has changed. -/
def appendOctet (k : CellClaim) (i : Nat) (b : Byte) (s : State) : Option State :=
  match s.frame i with
  | none => none
  | some r =>
    match r.chain.getLast?.filter (fun c => c.fill < Config.cellOctets) with
    | some c =>
      some ((s.writeCell c.cell c.fill b).putFrame i
        { r with chain := r.chain.dropLast ++ [{ c with fill := c.fill + 1 }], stored := r.stored + 1 })
    | none =>
      match claimCell k s with
      | none => none
      | some (c, s1) =>
        some ((s1.writeCell c 0 b).putFrame i
          { r with chain := r.chain ++ [{ cell := c, fill := 1 }], stored := r.stored + 1 })

/-- Appending octets one after another (R3, R32): the state reached, and whether every octet was stored. -/
def appendOctets (k : CellClaim) (i : Nat) : List Byte → State → State × Bool
  | [], s => (s, true)
  | b :: bs, s =>
    match appendOctet k i b s with
    | none => (s, false)
    | some s1 => appendOctets k i bs s1

/-- A whole-chain release (R9): the cells join the tail of the pool in chain order, and the chain is empty. -/
def releaseChain (i : Nat) (s : State) : State :=
  match s.frame i with
  | none => s
  | some r =>
    let s1 := { s with store := { s.store with freeCells := s.store.freeCells ++ r.chain.map ChainCell.cell } }
    s1.putFrame i { r with chain := [], stored := 0 }

/-- The chain of a gap-framing frame without its last two octets, and the cell that leaves it, by the fill count of the last
cell: 3 or more, exactly 2, or exactly 1 (R3). -/
def trimmedChain (chain : List ChainCell) : List ChainCell × List Nat :=
  match chain.getLast? with
  | none => ([], [])
  | some c =>
    if 3 ≤ c.fill then (chain.dropLast ++ [{ c with fill := c.fill - 2 }], [])
    else if c.fill = 2 then (chain.dropLast, [c.cell])
    else
      match chain.dropLast.getLast? with
      | none => ([], [c.cell])
      | some p => (chain.dropLast.dropLast ++ [{ p with fill := 31 }], [c.cell])

/-- Trimming the two CRC octets at the end of a gap-framing frame (R3, R9). -/
def trimFrame (i : Nat) (s : State) : State :=
  match s.frame i with
  | none => s
  | some r =>
    let t := trimmedChain r.chain
    let s1 := { s with store := { s.store with freeCells := s.store.freeCells ++ t.2 } }
    s1.putFrame i { r with chain := t.1, stored := r.stored - 2 }

/-- The octets of one cell of a chain: those below its fill count (R1). -/
def cellOctetsOf (m : List Host.Cell) (c : ChainCell) : List Byte :=
  (List.range c.fill).map (fun p => readOctet m (cellAddress c.cell p))

/-- The octets of a frame, in chain order (R4). -/
def frameOctets (s : State) (r : FrameRecord) : List Byte := r.chain.flatMap (cellOctetsOf s.store.octets)

/-- The octet of a frame at a read position (R4). -/
def frameOctetAt (s : State) (r : FrameRecord) (position : Nat) : Byte := (frameOctets s r).getD position 0

/-! ## Views of the chains -/

/-- The cell count of a frame (R2). -/
def FrameRecord.cellCount (r : FrameRecord) : Nat := r.chain.length

/-- The first cell of a frame's chain, or none (R2). -/
def FrameRecord.firstCell (r : FrameRecord) : Option Nat := r.chain.head?.map ChainCell.cell

/-- The last cell of a frame's chain, or none (R2). -/
def FrameRecord.lastCell (r : FrameRecord) : Option Nat := r.chain.getLast?.map ChainCell.cell

/-- The cells that are in chains, frame by frame. -/
def State.heldCells (s : State) : List Nat := s.store.frames.flatMap (fun p => p.2.chain.map ChainCell.cell)

/-- The cell that follows this one in a chain (R2). -/
def linkAfter : List ChainCell → Nat → Option Nat
  | a :: b :: rest, c => if a.cell = c then some b.cell else linkAfter (b :: rest) c
  | _, _ => none

/-- The next link of a cell: the cell after it in its frame's chain; none for a last cell and for a free cell (R1, R2). -/
def State.nextLink (s : State) (c : Nat) : Option Nat := s.store.frames.findSome? (fun p => linkAfter p.2.chain c)

/-- The fill count of a cell: 0 in the free cell pool (R1). -/
def State.fillCount (s : State) (c : Nat) : Nat :=
  ((s.store.frames.flatMap (fun p => p.2.chain)).find? (fun k => k.cell = c)).elim 0 ChainCell.fill

/-! ## Frame records -/

/-- The free record count (R15). -/
def State.freeRecordCount (s : State) : Nat := Config.frameRecords - s.store.frames.length

/-- A claim for a frame record (Table 1.7): the lowest-numbered free record, or none if refused. -/
def claimRecord (k : FrameKind) (s : State) : Option Nat :=
  match k with
  | .tx =>
    if s.recordReserve < s.freeRecordCount then Table.lowestFree s.store.frames Config.frameRecords else none
  | .rx => if 1 ≤ s.freeRecordCount then Table.lowestFree s.store.frames Config.frameRecords else none

/-- A frame record returns to the free record pool, its chain first to the cell pool (R16). -/
def freeFrame (i : Nat) (s : State) : State :=
  let s1 := releaseChain i s
  { s1 with store := { s1.store with frames := Table.del s1.store.frames i } }

/-- The outcome is fixed if it is absent, and kept otherwise (R14). -/
def FrameRecord.fixOutcome (r : FrameRecord) (o : FrameOutcome) : FrameRecord :=
  { r with outcome := some (r.outcome.getD o) }

/-- An RX record has delivery begun (R19). -/
def FrameRecord.deliveryBegun (r : FrameRecord) : Bool :=
  match r.state with
  | .delivering => true
  | .sent => true
  | .queued => r.resent
  | _ => false

/-! ## Lines -/

/-- The frame count of a line (R38). -/
def Line.frameCount (l : Line) : Nat :=
  l.tx.urgent.length + l.tx.normal.length + (if l.tx.current.isSome then 1 else 0)

/-- A line is opened in half duplex. -/
def Line.halfDuplex (l : Line) : Bool :=
  match l.config.duplex with
  | .full => false
  | .half _ => true

/-- A line is opened in sync framing. -/
def Line.isSync (l : Line) : Bool :=
  match l.config.framing with
  | .gap .. => false
  | .sync .. => true

/-- The half-duplex hold applies (R57): the receiver is ASSEMBLING or the turnaround timer is running. -/
def Line.held (l : Line) : Bool :=
  l.halfDuplex && (decide (l.rx.state = .assembling) || l.tx.turnaroundTimer.isSome)

/-- The live conditions (R97): CARRIER and CLEAR follow their inputs, BREAK and SYNCED the receiver (R80). -/
def Line.live (l : Line) : Conditions :=
  { carrier := l.carrier
    clear := l.clear
    breaking := decide (l.rx.state = .breaking)
    synced :=
      l.isSync &&
        (decide (l.rx.state = .synced) || decide (l.rx.state = .assembling) || decide (l.rx.state = .discard)) }

/-! ## Reply queue -/

/-- The occupied count: the entries and one reserved place for each pending break (R173). -/
def State.occupied (s : State) : Nat :=
  s.replies.length + (lineNos.filter (fun n => (s.line n).tx.pendingBreak.isSome)).length

/-- A reply joins the tail of the queue as an unsent entry (R173). -/
def joinReply (r : Reply) (s : State) : State :=
  { s with replies := s.replies ++ [{ reply := r, carriedBy := none }] }

/-! ## Inbound buffer -/

/-- The part's advertised room: the number of free inbound slots (R160). -/
def HostLink.room (h : HostLink) : Nat := Config.inboundSlots - h.inbound.length

/-- The execution of the record at the head ends: its slot is freed (R25, R160, R171). -/
def endExecution (s : State) : State :=
  s.modLink (fun h => { h with inbound := h.inbound.tail, headStalled := false })

end Sys2Proof.Machine
end

