-- ==== Sys2Proof/Machine/Operands.lean ====
section
/-! DEFINITION. The operands of commands and segments, read from record payloads (Tables 10.5 to 10.7, 10.18). -/

namespace Sys2Proof.Machine

/-- A line number field: 0 to 7, or none (R172 check 3). -/
def lineField (b : Byte) : Option LineNo := if h : b.toNat < 8 then some ⟨b.toNat, h⟩ else none

/-- A field with a range; none outside it (R172 check 4). -/
def rangeField (low high v : Nat) : Option Nat := if low ≤ v ∧ v ≤ high then some v else none

/-- A clear flag: 0 or 1 (R125, R178). -/
def clearFlag (b : Byte) : Option Bool :=
  if b = 0#8 then some false else if b = 1#8 then some true else none

/-- Framing field (Table 10.18). -/
def isSyncField (b : Byte) : Option Bool :=
  if b = 0#8 then some false else if b = 1#8 then some true else none

/-- Clock source field (Table 10.18). -/
def clockField (b : Byte) : Option ClockSource :=
  if b = 0#8 then some .line else if b = 1#8 then some .internal else none

/-- Parity field (Table 10.18). -/
def parityField (b : Byte) : Option Parity :=
  if b = 0#8 then some .none else if b = 1#8 then some .even else if b = 2#8 then some .odd else none

/-- Duplex field (Table 10.18); the turnaround, 0 to 255, is in range whatever its octet holds. -/
def duplexField (b turnaround : Byte) : Option Duplex :=
  if b = 0#8 then some .full else if b = 1#8 then some (.half turnaround.toNat) else none

/-- Transmit mode of CLOSE_LINE (Table 10.18). -/
def txModeField (b : Byte) : Option TxMode :=
  if b = 0#8 then some .drain else if b = 1#8 then some .flush else none

/-- Receive mode of CLOSE_LINE (Table 10.18). -/
def rxModeField (b : Byte) : Option RxMode :=
  if b = 0#8 then some .deliver else if b = 1#8 then some .discard else none

/-- Queue selectors of REDIRECT (R45). -/
inductive Selector where
  | urgent | normal | both
  deriving DecidableEq, Repr

/-- Queue selector field (Table 10.18). -/
def selectorField (b : Byte) : Option Selector :=
  if b = 0#8 then some .urgent else if b = 1#8 then some .normal else if b = 2#8 then some .both else none

/-- Positions of REDIRECT (R45). -/
inductive Position where
  | head | tail
  deriving DecidableEq, Repr

/-- Position field (Table 10.18). -/
def positionField (b : Byte) : Option Position :=
  if b = 0#8 then some .head else if b = 1#8 then some .tail else none

/-- A lifetime: 0, or 10 to 65535 ms (Table 6.2). -/
def lifetimeField (v : Nat) : Option Nat := if v = 0 then some 0 else rangeField 10 65535 v

/-- The framing of an OPEN_LINE with the parameters that apply to it, each in its range; the others are neither checked nor
kept (R109, R110). -/
def framingFields (framing clock parity stopBits gap : Byte) (pattern : Nat) (leadIn : Byte) : Option Framing :=
  match isSyncField framing with
  | none => none
  | some false =>
    match parityField parity, rangeField 1 2 stopBits.toNat, rangeField 2 16 gap.toNat with
    | some p, some b, some g => some (.gap p b g)
    | _, _, _ => none
  | some true =>
    match clockField clock, rangeField 0x0001 0xFFFE pattern, rangeField 2 15 leadIn.toNat with
    | some c, some p, some k => some (.sync c p k)
    | _, _, _ => none

/-- The seven values of SET_LINE (R113). -/
structure LineValues where
  weight : Nat
  lifetime : Nat
  threshold : Nat
  deliverErrors : Bool
  reportConditions : Bool
  quota : Nat
  limit : Nat
  deriving DecidableEq, Repr

/-- The seven values, each in the range Table 6.2 gives; options are the bits of Table 10.17. -/
def valueFields (weight : Byte) (lifetime : Nat) (threshold options quota limit : Byte) : Option LineValues :=
  match rangeField 1 15 weight.toNat, lifetimeField lifetime, rangeField 0 32 threshold.toNat,
      rangeField 1 32 quota.toNat, rangeField 1 64 limit.toNat with
  | some w, some l, some t, some q, some m =>
    some { weight := w, lifetime := l, threshold := t, deliverErrors := options.getLsbD 2
           reportConditions := options.getLsbD 3, quota := q, limit := m }
  | _, _, _, _, _ => none

/-- The parameters of an OPEN_LINE after its line number, checked against Table 6.2 (Table 10.6); none is BAD_VALUE. -/
def openFields : List Byte → Option LineConfig
  | [framing, rate, clock, parity, stopBits, gap, patternLow, patternHigh, leadIn, duplex, turnaround, options, quota, limit,
      weight, lifeLow, lifeHigh, threshold] =>
    match framingFields framing clock parity stopBits gap (word16 patternLow patternHigh) leadIn, rangeField 0 13 rate.toNat,
        duplexField duplex turnaround, valueFields weight (word16 lifeLow lifeHigh) threshold options quota limit with
    | some f, some r, some d, some v =>
      some { framing := f, rateCode := r, duplex := d, gateTx := options.getLsbD 0, gateRx := options.getLsbD 1
             requestMode := if options.getLsbD 4 then .frame else .line
             deliverErrors := v.deliverErrors, reportConditions := v.reportConditions, quota := v.quota, limit := v.limit
             weight := v.weight, lifetime := v.lifetime, threshold := v.threshold }
    | _, _, _, _ => none
  | _ => none

/-- The parameters of a SET_LINE after its line number (Table 10.5); none is BAD_VALUE. -/
def setFields : List Byte → Option LineValues
  | [weight, lifeLow, lifeHigh, threshold, options, quota, limit] =>
    valueFields weight (word16 lifeLow lifeHigh) threshold options quota limit
  | _ => none

/-- A readable segment (2.1, Table 10.7). -/
structure Segment where
  /-- 0 to 255 as sent -/
  line : Byte
  first : Bool
  last : Bool
  urgent : Bool
  tag : Nat
  /-- the declared length field, 0 to 65535 -/
  declared : Nat
  data : List Byte
  deriving DecidableEq, Repr

/-- The segment in a TX_SEGMENT payload, none if it is shorter than six octets (R25). -/
def segmentOf : List Byte → Option Segment
  | line :: flags :: tagLow :: tagHigh :: lenLow :: lenHigh :: data =>
    some { line := line, first := flags.getLsbD 0, last := flags.getLsbD 1, urgent := flags.getLsbD 2
           tag := word16 tagLow tagHigh, declared := word16 lenLow lenHigh, data := data }
  | _ => none

/-- The command codes of Table 9.2. -/
inductive CommandCode where
  | identify | setDevice | queryDevice | resetDevice | openLine | closeLine | queryLine | ackCondition | sendBreak | seekLine
  | cancelFrame | redirect | setLine
  deriving DecidableEq, Repr

/-- The octet of a command code (Table 9.2). -/
def CommandCode.octet : CommandCode → Byte
  | .identify => 0x01#8
  | .setDevice => 0x02#8
  | .queryDevice => 0x03#8
  | .resetDevice => 0x04#8
  | .openLine => 0x10#8
  | .closeLine => 0x11#8
  | .queryLine => 0x12#8
  | .ackCondition => 0x13#8
  | .sendBreak => 0x14#8
  | .seekLine => 0x15#8
  | .cancelFrame => 0x16#8
  | .redirect => 0x17#8
  | .setLine => 0x18#8

/-- The parameter length of a command code (Table 10.5). -/
def CommandCode.paramLength : CommandCode → Nat
  | .identify => 0
  | .setDevice => 3
  | .queryDevice => 1
  | .resetDevice => 0
  | .openLine => 19
  | .closeLine => 5
  | .queryLine => 2
  | .ackCondition => 1
  | .sendBreak => 3
  | .seekLine => 1
  | .cancelFrame => 2
  | .redirect => 4
  | .setLine => 8

/-- Every command code. -/
def CommandCode.all : List CommandCode :=
  [.identify, .setDevice, .queryDevice, .resetDevice, .openLine, .closeLine, .queryLine, .ackCondition, .sendBreak, .seekLine,
   .cancelFrame, .redirect, .setLine]

/-- The command a code octet names, none if it is unknown (R172). -/
def CommandCode.ofOctet (b : Byte) : Option CommandCode := CommandCode.all.find? (fun c => c.octet = b)

/-- The command of a COMMAND payload: none if it holds no octet or an unknown code (R172 check 1). -/
def commandOf (payload : List Byte) : Option CommandCode := payload.head?.bind CommandCode.ofOctet

end Sys2Proof.Machine
end

