-- ==== Sys2Proof/Machine/Flags.lean ====
section
/-! DEFINITION. The bit sets and codes the part writes into records (Tables 10.16 to 10.19), and the marks of a received
character. -/

namespace Sys2Proof.Machine

/-- Bit set of four conditions (Table 10.17). -/
def Conditions.bits (c : Conditions) : Nat :=
  bitOf 0 c.carrier + bitOf 1 c.clear + bitOf 2 c.breaking + bitOf 3 c.synced

/-- Options bit set (Table 10.17). -/
def LineConfig.optionBits (c : LineConfig) : Nat :=
  bitOf 0 c.gateTx + bitOf 1 c.gateRx + bitOf 2 c.deliverErrors + bitOf 3 c.reportConditions +
    bitOf 4 (decide (c.requestMode = .frame))

/-- Close modes bit set, 0 while not CLOSING (Table 10.11, Table 10.17). -/
def Line.closeModeBits (l : Line) : Nat :=
  if l.state = .closing then
    bitOf 0 (decide (l.close.txMode = .flush)) + bitOf 1 (decide (l.close.rxMode = .discard))
  else 0

/-- Line flags bit set (Table 10.17). -/
def Line.flagBits (l : Line) : Nat :=
  bitOf 0 l.close.reportPending + bitOf 1 l.tx.pendingBreak.isSome + bitOf 2 l.tx.current.isSome +
    bitOf 3 l.rx.pendingLoss + bitOf 4 l.group.latched + bitOf 5 l.group.reportPending

/-- RX_SEGMENT flags bit set (Table 10.17). -/
def segmentFlagBits (first last lossBefore resent : Bool) : Nat :=
  bitOf 0 first + bitOf 1 last + bitOf 2 lossBefore + bitOf 3 resent

/-- Outcome codes of either kind (Table 10.16). -/
def FrameOutcome.code : FrameOutcome → Nat
  | .ok => 0x00
  | .underrun => 0x01
  | .length => 0x02
  | .nospace => 0x03
  | .expired => 0x04
  | .cancelled => 0x05
  | .flushed => 0x06
  | .crc => 0x01
  | .parity => 0x02
  | .framing => 0x03

/-- Code of an outcome that may be absent; a DONE record and a queued RX record have one (R14). -/
def outcomeCode (o : Option FrameOutcome) : Nat := o.elim 0 FrameOutcome.code

/-- Reject status codes (Table 10.16). -/
def RejectStatus.code : RejectStatus → Nat
  | .lineClosed => 0x10
  | .tagClash => 0x11
  | .queueFull => 0x12
  | .length => 0x13
  | .noRecord => 0x14

/-- Reply status codes (Table 9.1). -/
def ReplyStatus.code : ReplyStatus → Nat
  | .ok => 0x00
  | .badFormat => 0x01
  | .unknownCommand => 0x02
  | .badLine => 0x03
  | .badValue => 0x04
  | .wrongState => 0x05
  | .notFound => 0x06
  | .busy => 0x07
  | .aborted => 0x08

/-- Line state codes (Table 10.18). -/
def LineState.code : LineState → Nat
  | .closed => 0x00
  | .opened => 0x01
  | .closing => 0x02

/-- Framing codes (Table 10.18). -/
def Framing.code : Framing → Nat
  | .gap .. => 0x00
  | .sync .. => 0x01

/-- Duplex codes (Table 10.18). -/
def Duplex.code : Duplex → Nat
  | .full => 0x00
  | .half _ => 0x01

/-- Reset cause codes (Table 10.18). -/
def ResetCause.code : ResetCause → Nat
  | .power => 0x00
  | .command => 0x01
  | .link => 0x02

/-- Transmitter state codes (Table 10.19). -/
def TxState.code : TxState → Nat
  | .off => 0x00
  | .idle => 0x01
  | .held => 0x02
  | .leadin => 0x03
  | .data => 0x04
  | .trailer => 0x05
  | .gap => 0x06
  | .breaking => 0x07

/-- Receiver state codes (Table 10.19). -/
def RxState.code : RxState → Nat
  | .off => 0x00
  | .gated => 0x01
  | .muted => 0x02
  | .discard => 0x03
  | .idle => 0x04
  | .breaking => 0x05
  | .seek => 0x06
  | .synced => 0x07
  | .assembling => 0x08

/-- Record type codes of the part (Table 10.3). -/
def PartType.code : PartType → Byte
  | .welcome => 0x81#8
  | .ack => 0x82#8
  | .nak => 0x83#8
  | .resync => 0x84#8
  | .reply => 0x90#8
  | .rxSegment => 0xA0#8
  | .txDone => 0xA8#8
  | .condition => 0xB0#8
  | .closed => 0xB8#8

/-- The octets of a record on HTXD, start octet and record CRC included (R150, R151, Table 10.2). -/
def PartRecord.octets (r : PartRecord) : List Byte :=
  startOctet :: recordOctets r.type.code (r.seq.setWidth 8) (r.ack.setWidth 8) (octet r.room) r.payload

/-- The number of ones among the data bits of a character. -/
def onesCount (b : Byte) : Nat := ((List.range 8).filter (fun i => b.getLsbD i)).length

/-- The parity bit that gives a character its parity (R59): EVEN makes the ones among data and parity bits even in number. -/
def parityBitOf (p : Parity) (b : Byte) : Bool :=
  match p with
  | .none => false
  | .even => decide (onesCount b % 2 = 1)
  | .odd => decide (onesCount b % 2 = 0)

/-- The parity-error mark of a character (R75): never set under NONE. -/
def parityMark (p : Parity) (b : Byte) (parityBit : Bool) : Bool :=
  match p with
  | .none => false
  | .even => parityBit != parityBitOf .even b
  | .odd => parityBit != parityBitOf .odd b

/-- The framing-error mark of a character (R75): its first stop bit was sampled spacing. -/
def framingMark (stopBit : Bool) : Bool := !stopBit

end Sys2Proof.Machine
end

