-- ==== Sys2Proof/Machine/Bits.lean ====
section
/-! DEFINITION. Bits on the lines and on the host link, in the order they go: what an octet, a character and a sync pattern put
there, and what is read from sampled bits (R59, R60, R75, R81, R149).

A list of bits gives them in the order they go onto the line or come from it, true for marking, which is 1. -/

namespace Sys2Proof.Machine

/-! ## Values of bits -/

/-- The value of bits that come least significant first. -/
def lowBitFirst : List Bool → Nat
  | [] => 0
  | b :: rest => bitOf 0 b + 2 * lowBitFirst rest

/-- The value of bits that come most significant first. -/
def highBitFirst (bits : List Bool) : Nat := bits.foldl (fun v b => 2 * v + bitOf 0 b) 0

/-! ## Gap framing and the host link -/

/-- Bit times of one character: start bit, 8 data bits, parity bit, stop bits (R59). -/
def characterBits (p : Parity) (stopBits : Nat) : Nat := 9 + (if p = .none then 0 else 1) + stopBits

/-- The bits of an asynchronous character: start bit, data bits least significant first, parity bit, stop bits (R59). -/
def characterOnLine (p : Parity) (stopBits : Nat) (b : Byte) : List Bool :=
  false :: (List.range 8).map (fun i => b.getLsbD i) ++ (if p = .none then [] else [parityBitOf p b]) ++
    List.replicate stopBits true

/-- What a character yields when it completes: one octet with two marks (R75). -/
structure ReceivedCharacter where
  octet : Byte
  framingError : Bool
  parityError : Bool
  deriving DecidableEq, Repr

/-- What a character yields whose samples after the start bit are these: 8 data bits, least significant first, the parity bit,
which is not read under NONE, and the first stop bit (R75). -/
def receivedCharacter (p : Parity) (data : OctetBits) (parityBit stopBit : Bool) : ReceivedCharacter :=
  let b := octet (lowBitFirst data.toList)
  { octet := b, framingError := framingMark stopBit, parityError := parityMark p b parityBit }

/-- A character with which a break may begin (R79): its samples after the start bit are spacing, all 8 data bits, the parity bit
if the line has parity, and the first stop bit, which is the framing error. -/
def nullCharacter (p : Parity) (data : OctetBits) (parityBit stopBit : Bool) : Bool :=
  data.toList.all (fun sample => !sample) && (decide (p = .none) || !parityBit) && framingMark stopBit

/-- The character in the samples of one character time, in the order they came: the start bit (spacing), 8 data bits, the parity
bit if the parity is EVEN or ODD, the first stop bit (R75); none where the samples are not those of a character. -/
def readCharacter (p : Parity) (samples : List Bool) : Option ReceivedCharacter :=
  match samples with
  | false :: b0 :: b1 :: b2 :: b3 :: b4 :: b5 :: b6 :: b7 :: behind =>
    let data : OctetBits := #v[b0, b1, b2, b3, b4, b5, b6, b7]
    match p, behind with
    | .none, [stop] => some (receivedCharacter .none data false stop)
    | .even, [parityBit, stop] => some (receivedCharacter .even data parityBit stop)
    | .odd, [parityBit, stop] => some (receivedCharacter .odd data parityBit stop)
    | _, _ => none
  | _ => none

/-- The bits of a character of the host link, in either direction (R149): the fixed format is a start bit, 8 data bits least
significant first, no parity bit and one stop bit. -/
def hostCharacter (b : Byte) : List Bool := characterOnLine .none 1 b

/-- Bit times of a character of the host link (R149). -/
def hostCharacterBits : Nat := characterBits .none 1

/-- A character on HRXD from its samples, as the Line Receiver reads one (R149): its octet, and the framing-error mark of a stop
bit sampled spacing; none where the samples are not those of a character. -/
def readHostCharacter (bits : List Bool) : Option (Byte × Bool) :=
  (readCharacter .none bits).map (fun c => (c.octet, c.framingError))

/-! ## Sync framing -/

/-- The bits of a sync-framing octet, most significant first (R60). -/
def octetOnLine (b : Byte) : List Bool := (List.range 8).map (fun i => b.getLsbD (7 - i))

/-- The 16 bits of a sync pattern, most significant first (R60). -/
def patternOnLine (pattern : Nat) : List Bool := (highFirst pattern).flatMap octetOnLine

/-- The octet in eight bits, most significant first (R81). -/
def receivedOctet (bits : OctetBits) : Byte := octet (highBitFirst bits.toList)

/-- The last 16 of these bits. -/
def lastSixteen (bits : List Bool) : List Bool := bits.drop (bits.length - 16)

/-- The search of SEEK (R81): behind the bits received before, it takes the bits that come one by one and compares the last 16
received with the sync pattern after every bit; the bits that follow the first match, or none without a match. -/
def seekPattern (pattern : Nat) (received : List Bool) : List Bool → Option (List Bool)
  | [] => none
  | b :: rest =>
    if lastSixteen (received ++ [b]) = patternOnLine pattern then some rest
    else seekPattern pattern (received ++ [b]) rest

end Sys2Proof.Machine
end

