-- ==== Sys2Proof/Machine/Completion.lean ====
section
/-! DEFINITION. How a transmit frame leaves its place: the entry into DONE, failure, DISCARDING, expiry and the flush handling
(R35, R36, R41, R48, R118). -/

namespace Sys2Proof.Machine

/-- The close tally an entry into DONE raises while its line is CLOSING (Table 6.5). -/
inductive DoneTally where
  | completed | flushed
  deriving DecidableEq, Repr

/-- The line with the tally raised, if it is CLOSING (R123). -/
def Line.countDone (how : DoneTally) (l : Line) : Line :=
  if l.state = .closing then
    match how with
    | .completed => { l with close := { l.close with completed := satInc l.close.completed } }
    | .flushed => { l with close := { l.close with flushed := satInc l.close.flushed } }
  else l

/-- A TX record enters DONE: its Tag Map entry is removed, its reference joins the tail of the Completion List, and the tally
of its line counts it (R21, R48, R123). -/
def enterDone (how : DoneTally) (i : Nat) (s : State) : State :=
  match s.frame i with
  | none => s
  | some r =>
    let s1 := { s with tags := Table.del s.tags r.tag, completion := s.completion ++ [EntryRef.frame i] }
    (s1.putFrame i { r with state := .done }).modLine r.line (Line.countDone how)

/-- Transmit mode FLUSH is in force on a CLOSING line (R118). -/
def Line.flushing (l : Line) : Bool := decide (l.state = .closing) && decide (l.close.txMode = .flush)

/-- An incomplete frame that has failed enters DISCARDING, or DONE while its line's close is in transmit mode FLUSH (R35,
R118). -/
def enterDiscarding (i : Nat) (s : State) : State :=
  match s.frame i with
  | none => s
  | some r => if (s.line r.line).flushing then enterDone .flushed i s else s.putFrame i { r with state := .discarding }

/-- A frame leaves the transmit queue in which it stands (R37). -/
def leaveQueue (i : Nat) (s : State) : State :=
  match s.frame i with
  | none => s
  | some r =>
    match r.priority with
    | .urgent => s.modLine r.line (fun l => { l with tx := { l.tx with urgent := l.tx.urgent.filter (· ≠ i) } })
    | .normal => s.modLine r.line (fun l => { l with tx := { l.tx with normal := l.tx.normal.filter (· ≠ i) } })

/-- A transmit frame fails (R35): the outcome is fixed if it is absent; a queued frame leaves its queue, releases its chain and
goes to DONE or DISCARDING; for a SENDING frame the fixed outcome is the abort request (R64). -/
def failFrame (o : FrameOutcome) (i : Nat) (s : State) : State :=
  match s.frame i with
  | none => s
  | some r =>
    match r.state with
    | .filling | .ready =>
      let s1 := releaseChain i (leaveQueue i (s.putFrame i (r.fixOutcome o)))
      if r.complete then enterDone .completed i s1 else enterDiscarding i s1
    | .sending => s.putFrame i (r.fixOutcome o)
    | _ => s

/-- The FILLING and READY frames of a line in queue order: URGENT head to tail, then NORMAL head to tail (R41, R118). -/
def Line.queued (l : Line) : List Nat := l.tx.urgent ++ l.tx.normal

/-- A queued frame whose age has reached the lifetime (R40). -/
def agedOut (s : State) (lifetime : Nat) (i : Nat) : Bool :=
  match s.frame i with
  | none => false
  | some r => decide (lifetime ≤ r.age)

/-- The expiries of one line at one tick, in queue order (R40, R41). -/
def expireLine (n : LineNo) (s : State) : State :=
  let l := s.line n
  if l.config.lifetime = 0 then s
  else (l.queued.filter (agedOut s l.config.lifetime)).foldl (fun t i => failFrame .expired i t) s

/-- Step 1 of the flush handling for one queued frame: it fails with FLUSHED and goes to DONE, through DISCARDING if it is
incomplete (R118). -/
def flushQueued (i : Nat) (s : State) : State :=
  match s.frame i with
  | none => s
  | some r => enterDone .flushed i (releaseChain i (leaveQueue i (s.putFrame i (r.fixOutcome .flushed))))

/-- The DISCARDING frames whose line field names the line, in ascending order of their tags (R118, R122): the Tag Map is
ordered by tag. -/
def discardingOf (n : LineNo) (s : State) : List Nat :=
  (s.tags.map Prod.snd).filter (fun i =>
    match s.frame i with
    | none => false
    | some r => decide (r.state = .discarding) && decide (r.line = n))

/-- Every DISCARDING frame of the line goes to DONE, keeping its outcome, in ascending tag order (R118 step 2, R122 step 1). -/
def finishDiscarding (n : LineNo) (s : State) : State :=
  (discardingOf n s).foldl (fun t i => enterDone .flushed i t) s

/-- The flush handling (R118): queued frames, DISCARDING frames, the SENDING frame; the close's transmit mode is FLUSH from
here on, and its drain timer does not run (R120). -/
def flushHandling (n : LineNo) (s : State) : State :=
  let l := s.line n
  let s1 := l.queued.foldl (fun t i => flushQueued i t) s
  let s2 := finishDiscarding n s1
  let s3 :=
    match l.tx.current with
    | none => s2
    | some i => failFrame .flushed i s2
  s3.modLine n (fun k => { k with close := { k.close with txMode := .flush, drainTimer := none } })

/-- The number of DISCARDING frames of a line (Table 6.7). -/
def discardingCount (n : LineNo) (s : State) : Nat := (discardingOf n s).length

end Sys2Proof.Machine
end

