-- ==== Sys2Proof/Machine/Conditions.lean ====
section
/-! DEFINITION. The Condition Group's judgment (Chapter 5). -/

namespace Sys2Proof.Machine

/-- The judgment of R99, made while the group is live (R98): a FREE group whose snapshot differs from the live values takes
them, latches, and under REPORT_CONDITIONS sets its report-pending flag. -/
def Line.judgeConditions (l : Line) : Line :=
  if l.state ≠ .closed ∧ l.group.latched = false ∧ l.live ≠ l.group.snapshot then
    { l with
      group :=
        { snapshot := l.live, latched := true, reportPending := l.group.reportPending || l.config.reportConditions } }
  else l

/-- The judgment of line n's Condition Group. -/
def judgeConditions (n : LineNo) (s : State) : State := s.modLine n Line.judgeConditions

/-- What ACK_CONDITION does to a LATCHED group before the re-compare (Table 5.3): a pending report is withdrawn and the group
becomes FREE. -/
def ConditionGroup.acknowledge (g : ConditionGroup) : ConditionGroup := { g with latched := false, reportPending := false }

/-- The rewind of a CONDITION record of the line (R147). -/
def Line.rewindCondition (l : Line) : Line :=
  if l.group.latched ∧ l.group.reportPending = false ∧ l.config.reportConditions then
    { l with group := { l.group with reportPending := true } }
  else l

end Sys2Proof.Machine
end

