-- ==== Sys2Proof/Machine/Receiver.lean ====
section
/-! DEFINITION. The Line Receiver: entry judgment, assembly, losses, disposition and placing (Chapter 4). -/

namespace Sys2Proof.Machine

/-- The state the entry judgment gives (R74). -/
def Line.entryState (l : Line) : RxState :=
  if l.config.gateRx && !l.carrier then .gated else if l.isSync then .seek else .discard

/-- The states whose entry abandons a character in progress: OFF, GATED and MUTED, in which LRXDn is not read, and BREAK, in
which the receiver waits for marking (R75, R79). -/
def RxState.abandons : RxState → Bool
  | .off | .gated | .muted | .breaking => true
  | .idle | .discard | .seek | .synced | .assembling => false

/-- The receiver enters a state; entry into SEEK clears the pattern-required mark (R82). -/
def Receiver.enter (r : Receiver) (x : RxState) : Receiver :=
  { r with
    state := x
    patternRequired := if x = .seek then false else r.patternRequired
    character := if x.abandons then .waiting else r.character }

/-- The reading of characters is in this phase (R75, R79). -/
def Line.readTo (p : CharacterPhase) (l : Line) : Line := { l with rx := { l.rx with character := p } }

/-- The entry judgment (R74). -/
def Line.enterListening (l : Line) : Line := { l with rx := l.rx.enter l.entryState }

/-- The mute of the receiver by a take or a break (R88): a receiver that is OFF stays OFF, and none is ASSEMBLING. -/
def Line.mute (l : Line) : Line :=
  if l.halfDuplex then
    match l.rx.state with
    | .off => l
    | .assembling => l
    | _ => { l with rx := { l.rx.enter .muted with toCome := 0 } }
  else l

/-- The end of the mute (R88): the entry judgment. -/
def Line.unmute (l : Line) : Line := if l.rx.state = .muted then l.enterListening else l

/-- The receiver leaves ASSEMBLING for a state: in half duplex the turnaround timer starts or restarts, unless the turnaround
is 0 (R57).  No such event is an event of a tick. -/
def Line.leaveAssembling (x : RxState) (l : Line) : Line :=
  let l1 := { l with rx := { l.rx.enter x with current := none } }
  match l.config.duplex with
  | .full => l1
  | .half t => { l1 with tx := { l1.tx with turnaroundTimer := if t = 0 then none else startTimer false t } }

/-- RX_ERRORS of a line is incremented (R124). -/
def countRxError (n : LineNo) (s : State) : State :=
  s.modLine n (fun l => { l with counters := { l.counters with rxErrors := satInc l.counters.rxErrors } })

/-- RX_FRAMES of a line is incremented (R124). -/
def countRxFrame (n : LineNo) (s : State) : State :=
  s.modLine n (fun l => { l with counters := { l.counters with rxFrames := satInc l.counters.rxFrames } })

/-- RX_LOST of a line is incremented (R124). -/
def countRxLost (n : LineNo) (s : State) : State :=
  s.modLine n (fun l => { l with counters := { l.counters with rxLost := satInc l.counters.rxLost } })

/-- A loss (R91): RX_LOST counts it and the pending-loss flag is set. -/
def loseFrame (n : LineNo) (s : State) : State :=
  (countRxLost n s).modLine n (fun l => { l with rx := { l.rx with pendingLoss := true } })

/-- The frame in assembly is discarded: its record and chain are released, and the receiver leaves ASSEMBLING for a state. -/
def discardAssembly (n : LineNo) (x : RxState) (s : State) : State :=
  match (s.line n).rx.current with
  | none => s.modLine n (Line.leaveAssembling x)
  | some i => (freeFrame i s).modLine n (Line.leaveAssembling x)

/-- An RX record as its receiver sets it (R11, R13). -/
def FrameRecord.newRx (n : LineNo) : FrameRecord := { kind := .rx, state := .assembling, line := n }

/-- A frame begins (R76, R83): with a record, ASSEMBLING, the turnaround timer stopped; without one, a NOREC loss and
DISCARD.  In sync framing length is the length field's value and header its two octets, in gap framing 0 and none. -/
def beginFrame (n : LineNo) (length : Nat) (header : List Byte) (s : State) : State :=
  let toCome := if (s.line n).isSync then length + 2 else 0
  match claimRecord .rx s with
  | some i =>
    (s.putFrame i (FrameRecord.newRx n)).modLine n (fun l =>
      { l with
        rx := { l.rx with
          state := .assembling, current := some i, count := 0, framingError := false, parityError := false
          length := length, toCome := toCome, crc := lineCrc header }
        tx := { l.tx with turnaroundTimer := if l.halfDuplex then none else l.tx.turnaroundTimer } })
  | none =>
    (loseFrame n s).modLine n (fun l => { l with rx := { l.rx with state := .discard, toCome := toCome } })

/-- A frame to be queued is placed (R92, R93, R95): numbered, marked, then appended, put in place of the tail, or dropped. -/
def placeFrame (n : LineNo) (i : Nat) (s : State) : State :=
  let rx := (s.line n).rx
  let numbered := s.modLine n (fun l =>
    { l with rx := { l.rx with nextNumber := (l.rx.nextNumber + 1) % 65536, pendingLoss := false } })
  let append (loss : Bool) (t : State) : State :=
    countRxFrame n ((t.modFrame i (fun r => { r with state := .queued, number := rx.nextNumber, lossMark := loss })).modLine n
      (fun l => { l with rx := { l.rx with queue := l.rx.queue ++ [i] } }))
  if rx.queue.length < (s.line n).config.quota then append rx.pendingLoss numbered
  else
    match rx.queue.getLast? with
    | none => loseFrame n (freeFrame i numbered)
    | some j =>
      if ((s.frame j).elim true FrameRecord.deliveryBegun) then loseFrame n (freeFrame i numbered)
      else
        countRxLost n (append true ((freeFrame j numbered).modLine n (fun l =>
          { l with rx := { l.rx with queue := l.rx.queue.dropLast } })))

/-- A frame that has ended is disposed of by its class (R86): queued with its outcome, or discarded and counted in RX_ERRORS.
trim says that its last two octets are the CRC (R77).  The receiver has left ASSEMBLING. -/
def disposeFrame (n : LineNo) (i : Nat) (o : FrameOutcome) (trim : Bool) (s : State) : State :=
  if o = .ok ∨ (s.line n).config.deliverErrors = true then
    let fixed := s.modFrame i (fun r => r.fixOutcome o)
    placeFrame n i (if trim then trimFrame i fixed else fixed)
  else countRxError n (freeFrame i s)

/-- The CRC check of gap framing (R85): the CRC of all octets but the last two equals those two, high octet first. -/
def gapCrcPasses (octets : List Byte) : Bool :=
  let k := octets.length - 2
  decide (highFirst (lineCrc (octets.take k)).toNat = octets.drop k)

/-- The class of a gap-framing frame at its end, none for SHORT (Table 4.3). -/
def gapClass (r : Receiver) (octets : List Byte) : Option FrameOutcome :=
  if r.count < 3 then none
  else if r.framingError then some .framing
  else if r.parityError then some .parity
  else if gapCrcPasses octets then some .ok
  else some .crc

/-- The end of a gap-framing frame in assembly (R77): judged and disposed of; the receiver enters IDLE. -/
def endGapFrame (n : LineNo) (s : State) : State :=
  let rx := (s.line n).rx
  match rx.current with
  | none => s.modLine n (Line.leaveAssembling .idle)
  | some i =>
    let octets := (s.frame i).elim [] (frameOctets s)
    let left := s.modLine n (Line.leaveAssembling .idle)
    match gapClass rx octets with
    | none => countRxError n (freeFrame i left)
    | some o => disposeFrame n i o true left

/-- A character completed in ASSEMBLING in gap framing (R76): LONG at the 1027th octet, a NOSPACE loss, or stored with its
marks and taken into the CRC register. -/
def assembleCharacter (n : LineNo) (c : ReceivedCharacter) (s : State) : State :=
  let rx := (s.line n).rx
  let counted := s.modLine n (fun l => { l with rx := { l.rx with count := l.rx.count + 1 } })
  match rx.current with
  | none => counted
  | some i =>
    if rx.count + 1 = Config.longOctets then countRxError n (discardAssembly n .discard counted)
    else
      match appendOctet .receiveData i c.octet counted with
      | none => loseFrame n (discardAssembly n .discard counted)
      | some t =>
        t.modLine n (fun l =>
          { l with rx := { l.rx with
            framingError := l.rx.framingError || c.framingError
            parityError := l.rx.parityError || c.parityError
            crc := lineCrcOctet l.rx.crc c.octet } })

/-- The end of a sync-framing frame with its second CRC octet (R83, R85): judged by CRC alone and disposed of; the receiver
enters SYNCED with the pattern-required mark set. -/
def endSyncFrame (n : LineNo) (crcLow : Byte) (s : State) : State :=
  let rx := (s.line n).rx
  let left := s.modLine n (fun l =>
    let k := l.leaveAssembling .synced
    { k with rx := { k.rx with patternRequired := true, toCome := 0 } })
  match rx.current with
  | none => left
  | some i =>
    let o : FrameOutcome := if highFirst rx.crc.toNat = [rx.crcHigh, crcLow] then .ok else .crc
    disposeFrame n i o false left

/-- An octet in sync ASSEMBLING (R83): data is stored, with a NOSPACE loss possible; the two CRC octets are not stored. -/
def assembleSyncOctet (n : LineNo) (b : Byte) (s : State) : State :=
  let rx := (s.line n).rx
  let counted := s.modLine n (fun l =>
    { l with rx := { l.rx with count := l.rx.count + 1, toCome := l.rx.toCome - 1 } })
  if 2 < rx.toCome then
    match rx.current with
    | none => counted
    | some i =>
      match appendOctet .receiveData i b counted with
      | none => loseFrame n (discardAssembly n .discard counted)
      | some t => t.modLine n (fun l => { l with rx := { l.rx with crc := lineCrcOctet l.rx.crc b } })
  else if rx.toCome = 2 then counted.modLine n (fun l => { l with rx := { l.rx with crcHigh := b } })
  else endSyncFrame n b counted

/-- An octet in sync DISCARD is consumed (R83): at 0 the receiver enters SYNCED with the pattern-required mark set. -/
def consumeSyncOctet (n : LineNo) (s : State) : State :=
  s.modLine n (fun l =>
    if l.rx.toCome ≤ 1 then { l with rx := { l.rx with state := .synced, patternRequired := true, toCome := 0 } }
    else { l with rx := { l.rx with toCome := l.rx.toCome - 1 } })

/-- A pair in SYNCED (Table 4.4). -/
def takePair (n : LineNo) (high low : Byte) (s : State) : State :=
  let l := s.line n
  match l.config.framing with
  | .gap .. => s
  | .sync _ pattern _ =>
    let v := pairValue high low
    if v = pattern then s.modLine n (fun k => { k with rx := { k.rx with patternRequired := false } })
    else if l.rx.patternRequired then s.modLine n (fun k => { k with rx := k.rx.enter .seek })
    else if 1 ≤ v ∧ v ≤ Config.maxFrame then beginFrame n v [high, low] s
    else countRxError n (s.modLine n (fun k => { k with rx := k.rx.enter .seek }))

/-- CARRIER off under GATE_RX (R87). -/
def gateReceiver (n : LineNo) (s : State) : State :=
  match (s.line n).rx.state with
  | .assembling => countRxError n (discardAssembly n .gated s)
  | .idle | .discard | .breaking | .seek | .synced =>
    s.modLine n (fun l => { l with rx := { l.rx.enter .gated with toCome := 0 } })
  | .off | .gated | .muted => s

/-- The effect of a detected break (R79): a frame in assembly is discarded, and the receiver enters BREAK. -/
def detectBreak (n : LineNo) (s : State) : State :=
  match (s.line n).rx.state with
  | .assembling =>
    let t := discardAssembly n .breaking s
    if 1 < (s.line n).rx.count then countRxError n t else t
  | .idle | .discard => s.modLine n (fun l => { l with rx := l.rx.enter .breaking })
  | _ => s

/-- SEEK_LINE acts on the receiver (Table 4.5). -/
def seekReceiver (n : LineNo) (s : State) : State :=
  match (s.line n).rx.state with
  | .assembling => countRxError n (discardAssembly n .seek s)
  | .synced | .discard => s.modLine n (fun l => { l with rx := { l.rx.enter .seek with toCome := 0 } })
  | _ => s

/-- The receiver enters OFF when a close takes its line to CLOSING (R89). -/
def closeReceiver (n : LineNo) (s : State) : State :=
  match (s.line n).rx.state with
  | .assembling => countRxError n (discardAssembly n .off s)
  | _ => s.modLine n (fun l => { l with rx := { l.rx.enter .off with toCome := 0 } })

end Sys2Proof.Machine
end

