-- ==== Sys2Proof/Machine/Transmitter.lean ====
section
/-! DEFINITION. The Line Transmitter: selection, take, breaks, data octet boundaries and frame ends (Chapter 3). -/

namespace Sys2Proof.Machine

/-- Eligibility of a queue head (R54). -/
def eligibleFrame (l : Line) (r : FrameRecord) : Bool :=
  match r.state with
  | .ready => true
  | .filling =>
    decide (1 ≤ l.config.threshold) && decide (l.config.threshold ≤ r.cellCount) && (!l.isSync || r.declared.isSome)
  | _ => false

/-- The head of a queue if it is eligible. -/
def eligibleHead (s : State) (l : Line) (queue : List Nat) : Option Nat :=
  match queue with
  | [] => none
  | i :: _ =>
    match s.frame i with
    | none => none
    | some r => if eligibleFrame l r then some i else none

/-- The candidate frame of a line: its URGENT head if eligible, otherwise its NORMAL head if eligible (R53 step 2). -/
def candidateFrame (s : State) (l : Line) : Option Nat :=
  match eligibleHead s l l.tx.urgent with
  | some i => some i
  | none => eligibleHead s l l.tx.normal

/-- CLEAR off under GATE_TX (R56). -/
def Line.clearGate (l : Line) : Bool := l.config.gateTx && !l.clear

/-- The transmitter takes a frame (R39, R55): the record leaves its queue and is SENDING, its sent count 0; LEADIN or DATA;
the receiver is muted in half duplex. -/
def takeFrame (n : LineNo) (i : Nat) (s : State) : State :=
  let s1 := s.modFrame i (fun r => { r with state := .sending, sentCount := 0 })
  s1.modLine n (fun l =>
    Line.mute { l with tx := { l.tx with
      urgent := l.tx.urgent.filter (· ≠ i), normal := l.tx.normal.filter (· ≠ i), current := some i, readPos := 0
      crc := lineCrcInit, octet := none, gapAfterBreak := false
      state := if l.isSync then .leadin else .data } })

/-- A pending break begins (R67): BREAK, the break timer, and the mute in half duplex. -/
def beginBreak (atTick : Bool) (duration : Nat) (l : Line) : Line :=
  Line.mute { l with tx := { l.tx with state := .breaking, breakTimer := startTimer atTick duration } }

/-- The transmitter enters or stays in a state. -/
def Line.txEnter (x : TxState) (l : Line) : Line := { l with tx := { l.tx with state := x } }

/-- The selection judgment (R53), made in IDLE and HELD alone: a pending break, else the candidate frame, unless a gate
applies. -/
def selectNext (atTick : Bool) (n : LineNo) (s : State) : State :=
  let l := s.line n
  if l.tx.state = .idle ∨ l.tx.state = .held then
    match l.tx.pendingBreak with
    | some b => if l.held then s.modLine n (Line.txEnter .held) else s.modLine n (beginBreak atTick b.duration)
    | none =>
      match candidateFrame s l with
      | none => s.modLine n (Line.txEnter .idle)
      | some i => if l.clearGate || l.held then s.modLine n (Line.txEnter .held) else takeFrame n i s
  else s

/-! ## The line reaches CLOSED (R122) -/

/-- The conditions of R122. -/
def Line.closedDue (l : Line) : Bool :=
  decide (l.state = .closing) && l.tx.urgent.isEmpty && l.tx.normal.isEmpty && l.tx.current.isNone &&
    (decide (l.tx.state = .idle) || decide (l.tx.state = .held)) && l.rx.queue.isEmpty

/-- Steps 2 to 6 of R122 at the line. -/
def Line.enterClosed (l : Line) : Line :=
  { l with
    state := .closed
    tx := { l.tx with state := .off, turnaroundTimer := none, gapAfterBreak := false }
    rx := { l.rx with pendingLoss := false }
    group := .reset
    close := { l.close with txMode := .drain, rxMode := .deliver, drainTimer := none, reportPending := true } }

/-- The judgment of R122: a CLOSING line that meets the conditions reaches CLOSED, its DISCARDING frames going to DONE first. -/
def judgeClosed (n : LineNo) (s : State) : State :=
  if (s.line n).closedDue then (finishDiscarding n s).modLine n Line.enterClosed else s

/-- What follows on line n within an event that has changed it: the selection judgment (R53), the judgment of R122 and the
Condition Group's judgment of the live values as the event leaves them (R97, R99).  In a state in which nothing on the line
has changed since its last judgments, none of the three changes anything. -/
def settleLine (atTick : Bool) (n : LineNo) (s : State) : State :=
  judgeConditions n (judgeClosed n (selectNext atTick n s))

/-! ## On the line -/

/-- The length a sync frame announces: its declared length, or its stored length if it has none (R61). -/
def FrameRecord.announced (r : FrameRecord) : Nat := r.declared.getD r.stored

/-- The end of a frame on its line (R65, Table 3.5): the transmitter holds it no longer and enters GAP; its chain is released;
it goes to DONE or DISCARDING, and TX_FRAMES or TX_ABORTS of the line its line field names is incremented. -/
def endFrame (n : LineNo) (i : Nat) (s : State) : State :=
  let s1 := s.modLine n (fun l => { l with tx := { l.tx with current := none, octet := none, gapAfterBreak := false, state := .gap } })
  let s2 := releaseChain i s1
  match s2.frame i with
  | none => s2
  | some r =>
    let tally : DoneTally := if (s2.line r.line).flushing then .flushed else .completed
    match r.outcome with
    | none =>
      (enterDone tally i (s2.putFrame i (r.fixOutcome .ok))).modLine r.line
        (fun l => { l with counters := { l.counters with txFrames := satInc l.counters.txFrames } })
    | some o =>
      let s3 := if o = .flushed ∨ r.complete = true then enterDone tally i s2 else enterDiscarding i s2
      s3.modLine r.line (fun l => { l with counters := { l.counters with txAborts := satInc l.counters.txAborts } })

/-- The last lead-in pattern ends (R61): DATA with the length field, whose two octets the CRC covers; or, for a frame whose
outcome is fixed, the pattern in progress ends and the frame ends with it (R64). -/
def endLeadin (n : LineNo) (i : Nat) (s : State) : State :=
  match s.frame i with
  | none => s
  | some r =>
    if r.outcome.isSome then endFrame n i s
    else
      s.modLine n (fun l => { l with tx := { l.tx with
        state := .data, octet := none, crc := lineCrcFrom l.tx.crc (highFirst r.announced) } })

/-- The transmitter begins TRAILER with this CRC. -/
def beginTrailer (crc : Crc) (l : Line) : Line :=
  { l with tx := { l.tx with state := .trailer, octet := none, trailer := crc } }

/-- A data octet boundary (R63, Table 3.3): the octet in progress, if any, has been put on the line and is counted; then the
next stored octet, the normal trailer, an underrun, or the trailer of an abort. -/
def octetBoundary (n : LineNo) (i : Nat) (s : State) : State :=
  let l := s.line n
  let s1 := if l.tx.octet.isSome then s.modFrame i (fun r => { r with sentCount := r.sentCount + 1 }) else s
  match s1.frame i with
  | none => s
  | some r =>
    if r.outcome.isSome then s1.modLine n (beginTrailer (~~~ l.tx.crc))
    else if l.tx.readPos < r.stored then
      let b := frameOctetAt s1 r l.tx.readPos
      s1.modLine n (fun k => { k with tx := { k.tx with
        octet := some b, readPos := k.tx.readPos + 1, crc := lineCrcOctet k.tx.crc b } })
    else if r.complete then s1.modLine n (beginTrailer l.tx.crc)
    else (s1.putFrame i (r.fixOutcome .underrun)).modLine n (beginTrailer (~~~ l.tx.crc))

/-- The end of a GAP (R59, R61, R88): the mute ends, and the transmitter is in IDLE for the judgment that follows. -/
def endGap (l : Line) : Line :=
  let k := if l.halfDuplex then l.unmute else l
  { k with tx := { k.tx with state := .idle, gapAfterBreak := false } }

/-- The pending break of a line ends: the reply with this status joins the queue in its reserved place; a break in progress
gives way to GAP (R67, R68). -/
def endBreak (n : LineNo) (status : ReplyStatus) (s : State) : State :=
  match (s.line n).tx.pendingBreak with
  | none => s
  | some b =>
    let s1 := s.modLine n (fun l =>
      if l.tx.state = .breaking then
        { l with tx := { l.tx with pendingBreak := none, breakTimer := none, state := .gap, gapAfterBreak := true } }
      else { l with tx := { l.tx with pendingBreak := none } })
    joinReply { code := CommandCode.sendBreak.octet, tag := b.tag, status := status, results := [] } s1

end Sys2Proof.Machine
end

