-- ==== Sys2Proof/Machine/Arbiter.lean ====
section
/-! DEFINITION. The Upstream Arbiter: the five classes, the round robin, and the payload of a retained record (Chapter 7). -/

namespace Sys2Proof.Machine

/-! ## Payloads (R140, Tables 10.8 to 10.15) -/

/-- Seven octets of a frame entry of TX_DONE (Table 10.13). -/
def frameEntryOctets (r : FrameRecord) : List Byte :=
  [octet 0x00] ++ octets16 r.tag ++ [octet r.line.val, octet (outcomeCode r.outcome)] ++ octets16 r.sentCount

/-- Seven octets of a reject entry of TX_DONE (Table 10.13). -/
def rejectEntryOctets (k : RejectSlot) : List Byte :=
  [octet 0x01] ++ octets16 k.tag ++ [octet k.line, octet k.status.code] ++ octets16 0

/-- A completion entry read through its reference (R49, R133). -/
def entryOctets (s : State) : EntryRef → List Byte
  | .frame i => (s.frame i).elim [] frameEntryOctets
  | .reject k => (Table.get s.rejects k).elim [] rejectEntryOctets

/-- REPLY payload (10.4.2): the results are there in an OK reply alone. -/
def replyOctets (r : Reply) : List Byte := [r.code, r.tag, octet r.status.code] ++ r.results

/-- RX_SEGMENT payload (Tables 7.3, 10.12). -/
def segmentOctets (s : State) (r : FrameRecord) (offset length flags : Nat) : List Byte :=
  [octet r.line.val, octet flags] ++ octets16 r.number ++ octets16 offset ++ octets16 r.stored ++ [octet (outcomeCode r.outcome)] ++
    ((frameOctets s r).drop offset).take length

/-- The payload of a retained record, built from its source at each sending (Table 7.4). -/
def payloadOf (s : State) (k : Retained) : List Byte :=
  match k.content with
  | .reply => ((s.replies.find? (fun e => e.carriedBy = some k.seq)).elim [] (fun e => replyOctets e.reply))
  | .condition n c => [octet n.val, octet c.bits]
  | .txDone entries => octet entries.length :: entries.flatMap (entryOctets s)
  | .closed n completed flushed discarded =>
    [octet n.val] ++ octets16 completed ++ octets16 flushed ++ octets16 discarded
  | .rxSegment i offset length first last lossBefore resent =>
    (s.frame i).elim [] (fun r => segmentOctets s r offset length (segmentFlagBits first last lossBefore resent))

/-- The record type of a retained record. -/
def Content.type : Content → PartType
  | .reply => .reply
  | .condition .. => .condition
  | .txDone _ => .txDone
  | .closed .. => .closed
  | .rxSegment .. => .rxSegment

/-! ## Reply class (R130) -/

/-- The queue with its oldest unsent entry carried by this sequence number, or none if no entry is unsent. -/
def carryOldest (seq : Seq) : List ReplyEntry → Option (List ReplyEntry)
  | [] => none
  | e :: rest =>
    match e.carriedBy with
    | none => some ({ e with carriedBy := some seq } :: rest)
    | some _ => (carryOldest seq rest).map (e :: ·)

/-- A REPLY record is formed from the oldest unsent reply, which is marked carried (R130). -/
def formReply (s : State) : Option (Content × State) :=
  (carryOldest s.link.vS s.replies).map (fun q => (.reply, { s with replies := q }))

/-! ## CONDITION class (R131) -/

/-- A CONDITION record is formed for the lowest-numbered line with its flag set, which is cleared (R131). -/
def formCondition (s : State) : Option (Content × State) :=
  (lineNos.find? (fun n => (s.line n).group.reportPending)).map (fun n =>
    (.condition n (s.line n).group.snapshot,
      s.modLine n (fun l => { l with group := { l.group with reportPending := false } })))

/-! ## TX_DONE class (R132) -/

/-- The reported mark of a completion entry (R49). -/
def entryReported (s : State) : EntryRef → Bool
  | .frame i => (s.frame i).elim true FrameRecord.reported
  | .reject k => (Table.get s.rejects k).elim true RejectSlot.reported

/-- The state with the reported mark of an entry at this value (R49). -/
def markEntry (mark : Bool) (s : State) : EntryRef → State
  | .frame i => s.modFrame i (fun r => { r with reported := mark })
  | .reject k =>
    match Table.get s.rejects k with
    | none => s
    | some e => { s with rejects := Table.put s.rejects k { e with reported := mark } }

/-- The entries a TX_DONE record would take: the first 12 unreported entries in list order (R132). -/
def unreportedBatch (s : State) : List EntryRef :=
  (s.completion.filter (fun e => !entryReported s e)).take Config.doneEntries

/-- A TX_DONE record is formed; its entries become reported and stay in the list (R132). -/
def formDone (s : State) : Option (Content × State) :=
  match unreportedBatch s with
  | [] => none
  | batch => some (.txDone batch, batch.foldl (markEntry true) s)

/-! ## CLOSED class (R134) -/

/-- The line a completion entry is of (R134): the record's line, or the slot's line field. -/
def entryLine (s : State) : EntryRef → Option Nat
  | .frame i => (s.frame i).map (fun r => r.line.val)
  | .reject k => (Table.get s.rejects k).map RejectSlot.line

/-- The Completion List holds an unreported entry of the line (R134). -/
def hasUnreported (s : State) (n : LineNo) : Bool :=
  s.completion.any (fun e => !entryReported s e && decide (entryLine s e = some n.val))

/-- A CLOSED record is formed for the lowest-numbered line that R134 allows; its flag is cleared. -/
def formClosed (s : State) : Option (Content × State) :=
  (lineNos.find? (fun n => (s.line n).close.reportPending && !hasUnreported s n)).map (fun n =>
    let c := (s.line n).close
    (.closed n c.completed c.flushed c.discarded,
      s.modLine n (fun l => { l with close := { l.close with reportPending := false } })))

/-! ## RX data class (R135 to R139) -/

/-- The delivery pointer of a line: the first QUEUED or DELIVERING frame of its receive queue (R136). -/
def deliveryPointer (s : State) (n : LineNo) : Option Nat :=
  (s.line n).rx.queue.find? (fun i =>
    match s.frame i with
    | none => false
    | some r => decide (r.state = .queued) || decide (r.state = .delivering))

/-- The lines after the pointed one in ascending order, wrapping from 7 to 0 and ending with the pointed line (R137). -/
def searchOrder (p : LineNo) : List LineNo :=
  (List.range 8).map (fun k => ⟨(p.val + k + 1) % 8, Nat.mod_lt _ (by decide)⟩)

/-- The line whose turn it is, and the turn count it has with it (R137); none if no line has deliverable data. -/
def chooseLine (s : State) : Option (LineNo × Nat) :=
  if (deliveryPointer s s.pointer).isSome ∧ 1 ≤ s.turnCount then some (s.pointer, s.turnCount)
  else
    ((searchOrder s.pointer).find? (fun n => (deliveryPointer s n).isSome)).map
      (fun n => (n, (s.line n).config.weight))

/-- An RX_SEGMENT record is formed from frame i of line n (R138, R139). -/
def formSegmentOf (n : LineNo) (turn i : Nat) (r : FrameRecord) (s : State) : Content × State :=
  let length := min s.link.segmentSize (r.stored - r.cursor)
  let first := decide (r.cursor = 0)
  let last := decide (r.cursor + length = r.stored)
  let s1 := s.putFrame i { r with cursor := r.cursor + length, state := if last then .sent else .delivering }
  (.rxSegment i r.cursor length first last (first && r.lossMark) r.resent, { s1 with pointer := n, turnCount := turn - 1 })

/-- An RX_SEGMENT record of the round-robin line (R137). -/
def formSegment (s : State) : Option (Content × State) :=
  match chooseLine s with
  | none => none
  | some (n, turn) =>
    match deliveryPointer s n with
    | none => none
    | some i => (s.frame i).map (fun r => formSegmentOf n turn i r s)

/-- The classes in the fixed order of Table 7.1 (R129): the record of the first class with sendable work, or none. -/
def formRecord (s : State) : Option (Content × State) :=
  match formReply s with
  | some x => some x
  | none =>
    match formCondition s with
    | some x => some x
    | none =>
      match formDone s with
      | some x => some x
      | none =>
        match formClosed s with
        | some x => some x
        | none => formSegment s

end Sys2Proof.Machine
end

