-- ==== Sys2Proof/Machine/Serializer.lean ====
section
/-! DEFINITION. The upstream serializer: what it begins to send when it is free (R157, R159, R162, R164, R168, R169). -/

namespace Sys2Proof.Machine

/-- The serializer begins a record (R168, R169): acknowledge field V(R), room field the advertised room, which becomes the room
last sent; the acknowledgement-owed flag is cleared. -/
def beginSending (type : PartType) (seq : Seq) (payload : List Byte) (s : State) : State :=
  s.modLink (fun h => { h with
    sending := some { type := type, seq := seq, ack := h.vR, room := h.room, payload := payload }
    ackOwed := false, roomLastSent := h.room })

/-- WELCOME payload (Table 10.8). -/
def welcomeOctets (c : ResetCause) : List Byte :=
  [octet c.code] ++ octets16 Config.partCode ++ [octet Config.revision]

/-- The serializer begins the WELCOME: the reset cause is copied into it and becomes LINK (R157). -/
def beginWelcome (s : State) : State :=
  (beginSending .welcome 0 (welcomeOctets s.link.resetCause) s).modLink
    (fun h => { h with item := .none, resetCause := .link })

/-- The serializer begins the RESYNC (R157). -/
def beginResync (s : State) : State :=
  (beginSending .resync 0 [] s).modLink (fun h => { h with item := .none })

/-- The serializer begins the pending NAK, counted in LINK_NAKS_SENT (R159). -/
def beginNak (s : State) : State :=
  (beginSending .nak 0 [] s).modLink (fun h => { h with nakPending := false, naksSent := satInc h.naksSent })

/-- The cursor after the record it names has been sent again: at V(S) it becomes none (R164). -/
def advanceCursor (c vS : Seq) : Option Seq := if c + 1 = vS then none else some (c + 1)

/-- The retained record with a sequence number. -/
def HostLink.retained (h : HostLink) (c : Seq) : Option Retained := h.retain.find? (fun k => k.seq = c)

/-- The retained record the cursor names is sent again, its payload built from its source (R140, R164). -/
def resend (c : Seq) (k : Retained) (s : State) : State :=
  (beginSending k.content.type k.seq (payloadOf s k) s).modLink (fun h => { h with cursor := advanceCursor c h.vS })

/-- V(S) lies within the host grant (R161). -/
def HostLink.withinGrant (h : HostLink) : Bool := decide ((h.vS - h.grantBase).toNat < h.grantRoom)

/-- The conditions of R162 that the serializer's order leaves open. -/
def HostLink.mayAsk (h : HostLink) : Bool :=
  decide (h.retain.length < Config.retainSlots) && h.withinGrant

/-- A formed record takes V(S), enters the retain list, and is sent; the retransmission timer starts if the list was empty
(R162). -/
def sendNew (atTick : Bool) (c : Content) (s : State) : State :=
  let k : Retained := { seq := s.link.vS, content := c }
  let s1 := s.modLink (fun h => { h with
    retain := h.retain ++ [k], vS := h.vS + 1
    retransTimer := if h.retain.isEmpty then startTimer atTick (10 * h.retransTimeout) else h.retransTimer })
  beginSending c.type k.seq (payloadOf s1 k) s1

/-- An ACK is due (R168 item 5). -/
def HostLink.ackDue (h : HostLink) : Bool := h.ackOwed || decide (h.room ≠ h.roomLastSent)

/-- Item 5 of R168. -/
def sendAckIfDue (s : State) : State := if s.link.ackDue then beginSending .ack 0 [] s else s

/-- Items 4 and 5 of R168: a new record if R162 allows and the Arbiter forms one, otherwise an ACK if one is due. -/
def sendNewOrAck (atTick : Bool) (s : State) : State :=
  if s.link.mayAsk then
    match formRecord s with
    | some (c, s1) => sendNew atTick c s1
    | none => sendAckIfDue s
  else sendAckIfDue s

/-- The free serializer's choice in UP behind a link-control item: items 2 to 5 of R168. -/
def chooseUp (atTick : Bool) (s : State) : State :=
  if s.link.nakPending then beginNak s
  else
    match s.link.cursor with
    | none => sendNewOrAck atTick s
    | some c =>
      match s.link.retained c with
      | some k => resend c k s
      | none => sendAckIfDue s

/-- The serializer when it is free, at the end of every event (R168): it begins the first item that applies, or stays free.
In DOWN only a link-control item applies. -/
def serve (atTick : Bool) (s : State) : State :=
  if s.link.sending.isSome then s
  else
    match s.link.item with
    | .welcome => beginWelcome s
    | .resync => beginResync s
    | .none =>
      match s.link.state with
      | .down => s
      | .up => chooseUp atTick s

end Sys2Proof.Machine
end

