-- ==== Sys2Proof/Machine/Segments.lean ====
section
/-! DEFINITION. The Segment Handler: TX_SEGMENT records at the head of the inbound buffer (Chapter 2). -/

namespace Sys2Proof.Machine

/-- STRAY_SEGMENTS is incremented (R179). -/
def countStray (s : State) : State := { s with straySegments := satInc s.straySegments }

/-- The first-segment checks (Table 2.1), in order: the status of the first that fails, or the line and the TX record served. -/
def firstCheck (g : Segment) (s : State) : Except RejectStatus (LineNo × Nat) :=
  match lineField g.line with
  | none => .error .lineClosed
  | some n =>
    if (s.line n).state ≠ .opened then .error .lineClosed
    else if (Table.get s.tags g.tag).isSome then .error .tagClash
    else if (s.line n).config.limit ≤ (s.line n).frameCount then .error .queueFull
    else if Config.maxFrame < g.declared ∨ Config.maxSegment < g.data.length then .error .length
    else
      match claimRecord .tx s with
      | none => .error .noRecord
      | some i => .ok (n, i)

/-- The bound of a frame's length: its declared length, or 1024 (R32). -/
def FrameRecord.bound (r : FrameRecord) : Nat := r.declared.getD Config.maxFrame

/-- Storing a segment's data (R32): the length step, then the octets one after another; the failure, if there is one. -/
def storeData (i : Nat) (data : List Byte) (s : State) : State × Option FrameOutcome :=
  match s.frame i with
  | none => (s, none)
  | some r =>
    if r.bound < r.stored + data.length ∨ Config.maxSegment < data.length then (s, some .length)
    else
      match appendOctets .transmitData i data s with
      | (s1, true) => (s1, none)
      | (s1, false) => (s1, some .nospace)

/-- complete = yes (R33, R34). -/
def setComplete (i : Nat) (s : State) : State := s.modFrame i (fun r => { r with complete := true })

/-- The stored length is valid for a closing (R33). -/
def FrameRecord.lengthValid (r : FrameRecord) : Bool :=
  decide (r.stored ≠ 0) && r.declared.all (fun d => r.stored = d)

/-- Closing a frame (R33): complete = yes; an invalid stored length fails it with LENGTH, otherwise a FILLING frame becomes
READY. -/
def closeFrame (i : Nat) (s : State) : State :=
  let s1 := setComplete i s
  match s1.frame i with
  | none => s1
  | some r =>
    if r.lengthValid then
      if r.state = .filling then s1.putFrame i { r with state := .ready } else s1
    else failFrame .length i s1

/-- The data of a segment is stored, and its LAST flag closes the frame or, if the data has failed it, sets complete first
(R32, R33). -/
def storeAndClose (i : Nat) (data : List Byte) (last : Bool) (s : State) : State :=
  match storeData i data s with
  | (s1, none) => if last then closeFrame i s1 else s1
  | (s1, some o) => failFrame o i (if last then setComplete i s1 else s1)

/-- A TX record as the Segment Handler sets it (R28 step 1). -/
def FrameRecord.newTx (n : LineNo) (g : Segment) : FrameRecord :=
  { kind := .tx, state := .filling, line := n, priority := if g.urgent then .urgent else .normal, tag := g.tag
    declared := if g.declared = 0 then none else some g.declared }

/-- The record joins the tail of the queue of its priority (R28 step 3). -/
def Line.enqueue (urgent : Bool) (i : Nat) (l : Line) : Line :=
  if urgent then { l with tx := { l.tx with urgent := l.tx.urgent ++ [i] } }
  else { l with tx := { l.tx with normal := l.tx.normal ++ [i] } }

/-- A first segment that passes its checks creates a transmit frame (R28). -/
def acceptFirst (g : Segment) (n : LineNo) (i : Nat) (s : State) : State :=
  let s1 := s.putFrame i (FrameRecord.newTx n g)
  let s2 := { s1 with tags := Table.put s1.tags g.tag i }
  storeAndClose i g.data g.last (s2.modLine n (Line.enqueue g.urgent i))

/-- A rejected first segment takes the lowest-numbered free reject slot and makes its entry (R29, R30); none if no slot is
free. -/
def rejectFirst (g : Segment) (status : RejectStatus) (s : State) : Option State :=
  (Table.lowestFree s.rejects Config.rejectSlots).map (fun k =>
    { s with
      rejects := Table.put s.rejects k { tag := g.tag, line := g.line.toNat, status := status, reported := false }
      completion := s.completion ++ [EntryRef.reject k] })

/-- A later segment, by the state of the frame its tag finds (Table 2.2, R34, R36). -/
def laterSegment (g : Segment) (s : State) : State :=
  match Table.get s.tags g.tag with
  | none => countStray s
  | some i =>
    match s.frame i with
    | none => countStray s
    | some r =>
      match r.state with
      | .filling => storeAndClose i g.data g.last s
      | .sending =>
        if r.outcome.isSome then (if g.last then setComplete i s else s)
        else if r.complete then (if g.data = [] then s else failFrame .length i s)
        else storeAndClose i g.data g.last s
      | .ready => if g.data = [] then s else failFrame .length i s
      | .discarding => if g.last then enterDone .completed i (setComplete i s) else s
      | _ => s

/-- The line of the frame a tag finds. -/
def tagLine (s : State) (tag : Nat) : Option LineNo := ((Table.get s.tags tag).bind s.frame).map FrameRecord.line

/-- What follows on a line, if there is one. -/
def settleAt (atTick : Bool) (n : Option LineNo) (s : State) : State :=
  match n with
  | none => s
  | some k => settleLine atTick k s

/-- The record at the head stalls (R30, R174). -/
def stallHead (s : State) : State := s.modLink (fun h => { h with headStalled := true })

/-- One judgment of the TX_SEGMENT record at the head (R25 to R31): its execution ends, or a first segment to be rejected stalls
for want of a reject slot (R30). -/
def runSegment (atTick : Bool) (payload : List Byte) (s : State) : State :=
  match segmentOf payload with
  | none => endExecution (countStray s)
  | some g =>
    if g.first then
      match firstCheck g s with
      | .ok (n, i) => endExecution (settleLine atTick n (acceptFirst g n i s))
      | .error status =>
        match rejectFirst g status s with
        | some s1 => endExecution s1
        | none => stallHead s
    else endExecution (settleAt atTick (tagLine s g.tag) (laterSegment g s))

end Sys2Proof.Machine
end

