-- ==== Sys2Proof/Machine/Commands.lean ====
section
/-! DEFINITION. The Command Interpreter: what each command does when it is executed at the head of the inbound buffer
(Chapters 2, 3, 4, 5, 6 and 9).  A body takes the command tag and parameters of the right length. -/

namespace Sys2Proof.Machine

/-- A refused command forms its reply and changes nothing else (R172). -/
def refuse (c : CommandCode) (tag : Byte) (status : ReplyStatus) (s : State) : State :=
  joinReply { code := c.octet, tag := tag, status := status, results := [] } s

/-- An executed command forms its reply OK with its results (R172). -/
def replyOk (c : CommandCode) (tag : Byte) (results : List Byte) (s : State) : State :=
  joinReply { code := c.octet, tag := tag, status := .ok, results := results } s

/-! ## Device commands -/

/-- IDENTIFY results (R176, Table 10.9). -/
def identifyOctets : List Byte :=
  octets16 Config.partCode ++ [octet Config.revision, octet Config.lineCount] ++ octets16 Config.cells ++
    octets16 Config.frameRecords

/-- IDENTIFY (R176). -/
def identifyBody (tag : Byte) (_ps : List Byte) (s : State) : State := replyOk .identify tag identifyOctets s

/-- SET_DEVICE (R177). -/
def setDeviceBody (tag : Byte) (ps : List Byte) (s : State) : State :=
  match ps with
  | [floorLow, floorHigh, reserve] =>
    match rangeField 0 1024 (word16 floorLow floorHigh), rangeField 0 64 reserve.toNat with
    | some f, some r => replyOk .setDevice tag [] { s with reserveFloor := f, recordReserve := r }
    | _, _ => refuse .setDevice tag .badValue s
  | _ => s

/-- QUERY_DEVICE results (Table 10.10). -/
def deviceOctets (s : State) : List Byte :=
  octets16 s.freeCellCount ++ octets16 s.freeRecordCount ++ octets16 s.completion.length ++
    [octet (Config.rejectSlots - s.rejects.length), octet s.occupied] ++ octets16 s.reserveFloor ++ [octet s.recordReserve] ++
    octets16 s.straySegments ++ octets16 s.link.crcErrors ++ octets16 s.link.naksSent ++ octets16 s.link.retransmissions ++
    octets16 s.link.drops ++ octets16 s.link.ackErrors

/-- The six device counters become 0 (R178). -/
def clearDeviceCounters (s : State) : State :=
  { s with
    straySegments := 0
    link := { s.link with crcErrors := 0, naksSent := 0, retransmissions := 0, drops := 0, ackErrors := 0 } }

/-- QUERY_DEVICE (R178). -/
def queryDeviceBody (tag : Byte) (ps : List Byte) (s : State) : State :=
  match ps with
  | [flag] =>
    match clearFlag flag with
    | none => refuse .queryDevice tag .badValue s
    | some clear => replyOk .queryDevice tag (deviceOctets s) (if clear then clearDeviceCounters s else s)
  | _ => s

/-- The Host Link Controller after a device reset (Table 8.3, R180). -/
def HostLink.deviceReset (h : HostLink) : HostLink :=
  { h with
    state := .down, vA := h.vS, retain := [], cursor := none, retryCount := 0, retransTimer := none, silenceTimer := none
    inbound := [], headStalled := false, nakSent := false, nakPending := false, ackOwed := false, item := .resync
    resetCause := .command, roomLastSent := 8 }

/-- The device reset (R180): every block in its reset state; the device counters, V(R), V(S), the host grant, the HELLO
parameters, the rate, the reception state and a record being sent are kept. -/
def deviceReset (s : State) : State :=
  { s with
    lines := s.lines.map (fun l => Line.reset l.carrier l.clear)
    store := .reset s.store.octets, tags := [], rejects := [], completion := [], replies := [], reserveFloor := 256
    recordReserve := 16, pointer := 7, turnCount := 0, link := s.link.deviceReset }

/-- RESET_DEVICE forms no reply (R180). -/
def resetDeviceBody (_tag : Byte) (_ps : List Byte) (s : State) : State := deviceReset s

/-! ## OPEN_LINE, SET_LINE, QUERY_LINE -/

/-- The line as an accepted OPEN_LINE leaves it (R112), before the selection judgment. -/
def Line.openWith (c : LineConfig) (l : Line) : Line :=
  let l1 : Line :=
    { l with
      state := .opened, config := c, counters := .zero
      tx := { l.tx with state := .idle, turnaroundTimer := none }
      rx := { l.rx with nextNumber := 0, pendingLoss := false } }
  let l2 := l1.enterListening
  { l2 with group := { snapshot := l2.live, latched := false, reportPending := false } }

/-- OPEN_LINE (R109 to R112). -/
def openLineBody (tag : Byte) (ps : List Byte) (s : State) : State :=
  match ps with
  | line :: rest =>
    match lineField line with
    | none => refuse .openLine tag .badLine s
    | some n =>
      match openFields rest with
      | none => refuse .openLine tag .badValue s
      | some c =>
        if (s.line n).state ≠ .closed ∨ (s.line n).close.reportPending = true then refuse .openLine tag .wrongState s
        else replyOk .openLine tag [] (settleLine false n (s.modLine n (Line.openWith c)))
  | [] => s

/-- The seven values come into force together (R113, R114); clearing REPORT_CONDITIONS withdraws a pending report (R103). -/
def Line.setValues (v : LineValues) (l : Line) : Line :=
  { l with
    config := { l.config with
      weight := v.weight, lifetime := v.lifetime, threshold := v.threshold, deliverErrors := v.deliverErrors
      reportConditions := v.reportConditions, quota := v.quota, limit := v.limit }
    group := { l.group with reportPending := l.group.reportPending && v.reportConditions } }

/-- SET_LINE (R113). -/
def setLineBody (tag : Byte) (ps : List Byte) (s : State) : State :=
  match ps with
  | line :: rest =>
    match lineField line with
    | none => refuse .setLine tag .badLine s
    | some n =>
      match setFields rest with
      | none => refuse .setLine tag .badValue s
      | some v =>
        if (s.line n).state ≠ .opened ∨ v.quota < (s.line n).rx.queue.length ∨ v.limit < (s.line n).frameCount then
          refuse .setLine tag .wrongState s
        else replyOk .setLine tag [] (settleLine false n (s.modLine n (Line.setValues v)))
  | [] => s

/-- Drain time remaining (Table 6.7): the ticks still to come; a free value where the two octets cannot hold the number
(assumption log 3). -/
def Line.drainRemaining (l : Line) : Nat :=
  match l.close.drainTimer with
  | none => 0
  | some k => if k ≤ Config.saturation then k else (Config.drainTimeOverflow k).toNat

/-- QUERY_LINE results (Tables 6.7 and 10.11). -/
def lineOctets (n : LineNo) (s : State) : List Byte :=
  let l := s.line n
  [octet l.state.code, octet l.closeModeBits, octet l.flagBits] ++ octets16 l.drainRemaining ++ octets16 l.close.completed ++
    octets16 l.close.flushed ++ octets16 l.close.discarded ++
    [octet l.config.framing.code, octet l.config.duplex.code, octet l.config.weight] ++ octets16 l.config.lifetime ++
    [octet l.config.threshold, octet l.config.optionBits, octet l.config.quota, octet l.config.limit, octet l.tx.state.code,
      octet l.tx.urgent.length, octet l.tx.normal.length, octet l.frameCount] ++ octets16 (discardingCount n s) ++
    [octet l.rx.state.code, octet l.rx.queue.length] ++ octets16 l.rx.nextNumber ++
    [octet l.live.bits, octet l.group.snapshot.bits] ++ octets16 l.counters.txFrames ++ octets16 l.counters.txAborts ++
    octets16 l.counters.rxFrames ++ octets16 l.counters.rxErrors ++ octets16 l.counters.rxLost

/-- QUERY_LINE (R125). -/
def queryLineBody (tag : Byte) (ps : List Byte) (s : State) : State :=
  match ps with
  | [line, flag] =>
    match lineField line with
    | none => refuse .queryLine tag .badLine s
    | some n =>
      match clearFlag flag with
      | none => refuse .queryLine tag .badValue s
      | some clear =>
        replyOk .queryLine tag (lineOctets n s)
          (if clear then s.modLine n (fun l => { l with counters := .zero }) else s)
  | _ => s

/-! ## CLOSE_LINE -/

/-- One frame of the receive queue under receive mode DISCARD (R119): without delivery begun it is removed, released and
counted in the discarded tally. -/
def discardQueued (n : LineNo) (s : State) (i : Nat) : State :=
  if (s.frame i).elim true FrameRecord.deliveryBegun then s
  else
    (freeFrame i s).modLine n (fun l =>
      { l with
        rx := { l.rx with queue := l.rx.queue.filter (· ≠ i) }
        close := { l.close with discarded := satInc l.close.discarded } })

/-- The release of receive mode DISCARD (R119).  DESIGN CHOICE (assumption log 21): R9 and R119 give no order among the frames
one release removes; their chains join the pool frame by frame in queue order, head to tail. -/
def releaseDiscard (n : LineNo) (s : State) : State :=
  let s1 := (s.line n).rx.queue.foldl (discardQueued n) s
  s1.modLine n (fun l => { l with close := { l.close with rxMode := .discard } })

/-- Step 1 of R116: CLOSING, with the close modes and the tallies at 0. -/
def Line.beginClose (t : TxMode) (r : RxMode) (l : Line) : Line :=
  { l with
    state := .closing
    close := { l.close with txMode := t, rxMode := r, drainTimer := none, completed := 0, flushed := 0, discarded := 0 } }

/-- Step 5 of R116: the transmit mode is applied. -/
def applyTxMode (n : LineNo) (t : TxMode) (limit : Nat) (s : State) : State :=
  match t with
  | .flush => flushHandling n s
  | .drain =>
    if limit = 0 then s
    else s.modLine n (fun l => { l with close := { l.close with drainTimer := startTimer false limit } })

/-- Step 6 of R116: the receive mode is applied. -/
def applyRxMode (n : LineNo) (r : RxMode) (s : State) : State :=
  match r with
  | .deliver => s
  | .discard => releaseDiscard n s

/-- A CLOSE_LINE accepted on an OPEN line, its steps in order (R116). -/
def closeOpen (tag : Byte) (n : LineNo) (t : TxMode) (r : RxMode) (limit : Nat) (s : State) : State :=
  let s1 := s.modLine n (Line.beginClose t r)
  let s2 := closeReceiver n s1
  let s3 := endBreak n .aborted s2
  let s4 := replyOk .closeLine tag [] s3
  settleLine false n (applyRxMode n r (applyTxMode n t limit s4))

/-- A CLOSE_LINE on a CLOSING line escalates the transmit mode, the receive mode, both or neither (R121). -/
def escalate (tag : Byte) (n : LineNo) (t : TxMode) (r : RxMode) (s : State) : State :=
  let c := (s.line n).close
  let tx := decide (t = .flush) && decide (c.txMode = .drain)
  let rx := decide (r = .discard) && decide (c.rxMode = .deliver)
  if tx || rx then
    let s1 := if tx then flushHandling n s else s
    let s2 := if rx then releaseDiscard n s1 else s1
    settleLine false n (replyOk .closeLine tag [] s2)
  else refuse .closeLine tag .wrongState s

/-- CLOSE_LINE (R115, R116, R121). -/
def closeLineBody (tag : Byte) (ps : List Byte) (s : State) : State :=
  match ps with
  | [line, tmode, rmode, limitLow, limitHigh] =>
    match lineField line with
    | none => refuse .closeLine tag .badLine s
    | some n =>
      match txModeField tmode, rxModeField rmode with
      | some t, some r =>
        match (s.line n).state with
        | .opened => closeOpen tag n t r (word16 limitLow limitHigh) s
        | .closing => escalate tag n t r s
        | .closed => refuse .closeLine tag .wrongState s
      | _, _ => refuse .closeLine tag .badValue s
  | _ => s

/-! ## Line commands -/

/-- ACK_CONDITION (R101, Table 5.3): a LATCHED group is freed and compared again; a FREE group stays as it is. -/
def ackConditionBody (tag : Byte) (ps : List Byte) (s : State) : State :=
  match ps with
  | [line] =>
    match lineField line with
    | none => refuse .ackCondition tag .badLine s
    | some n =>
      replyOk .ackCondition tag []
        (if (s.line n).group.latched then
          judgeConditions n (s.modLine n (fun l => { l with group := l.group.acknowledge }))
        else s)
  | _ => s

/-- SEND_BREAK (R66): accepted, it forms no reply yet. -/
def sendBreakBody (tag : Byte) (ps : List Byte) (s : State) : State :=
  match ps with
  | [line, durationLow, durationHigh] =>
    match lineField line with
    | none => refuse .sendBreak tag .badLine s
    | some n =>
      let d := word16 durationLow durationHigh
      if d = 0 then refuse .sendBreak tag .badValue s
      else if (s.line n).state ≠ .opened ∨ (s.line n).isSync = true then refuse .sendBreak tag .wrongState s
      else if (s.line n).tx.pendingBreak.isSome then refuse .sendBreak tag .busy s
      else
        settleLine false n (s.modLine n (fun l =>
          { l with tx := { l.tx with pendingBreak := some { tag := tag, duration := d } } }))
  | _ => s

/-- SEEK_LINE (R84). -/
def seekLineBody (tag : Byte) (ps : List Byte) (s : State) : State :=
  match ps with
  | [line] =>
    match lineField line with
    | none => refuse .seekLine tag .badLine s
    | some n =>
      if (s.line n).state ≠ .opened ∨ (s.line n).isSync = false then refuse .seekLine tag .wrongState s
      else replyOk .seekLine tag [] (settleLine false n (seekReceiver n s))
  | _ => s

/-- CANCEL_FRAME (R43, Table 2.5): a DISCARDING frame, or a SENDING one with its outcome fixed, stays as it is. -/
def cancelFrameBody (tag : Byte) (ps : List Byte) (s : State) : State :=
  match ps with
  | [low, high] =>
    match Table.get s.tags (word16 low high) with
    | none => refuse .cancelFrame tag .notFound s
    | some i =>
      replyOk .cancelFrame tag [] (settleAt false (tagLine s (word16 low high)) (failFrame .cancelled i s))
  | _ => s

/-! ## REDIRECT -/

/-- A candidate of a REDIRECT: its priority, its position in its queue, its record and its age (R46). -/
structure Candidate where
  urgent : Bool
  position : Nat
  frame : Nat
  age : Nat
  deriving DecidableEq, Repr

/-- The candidates in one queue, head to tail, from this position on. -/
def candidatesOf (s : State) (urgent : Bool) : Nat → List Nat → List Candidate
  | _, [] => []
  | k, i :: rest =>
    { urgent := urgent, position := k, frame := i, age := (s.frame i).elim 0 FrameRecord.age } ::
      candidatesOf s urgent (k + 1) rest

/-- The candidates in the selected queue or queues of the source line: URGENT before NORMAL, head to tail (R46). -/
def candidates (s : State) (src : LineNo) (q : Selector) : List Candidate :=
  let u := candidatesOf s true 0 (s.line src).tx.urgent
  let m := candidatesOf s false 0 (s.line src).tx.normal
  match q with
  | .urgent => u
  | .normal => m
  | .both => u ++ m

/-- Inserting a candidate before the first that is younger than it: among equal ages the earlier one stays ahead. -/
def insertByAge (c : Candidate) : List Candidate → List Candidate
  | [] => [c]
  | d :: rest => if d.age < c.age then c :: d :: rest else d :: insertByAge c rest

/-- The candidates, oldest first (R46). -/
def oldestFirst (cs : List Candidate) : List Candidate := cs.foldl (fun acc c => insertByAge c acc) []

/-- The room of a REDIRECT's destination (R46). -/
def redirectRoom (s : State) (dst : LineNo) : Nat := (s.line dst).config.limit - (s.line dst).frameCount

/-- A queue split into the frames at the chosen positions and the others, each in queue order. -/
def splitQueue (chosen : List Nat) : Nat → List Nat → List Nat × List Nat
  | _, [] => ([], [])
  | k, i :: rest =>
    let r := splitQueue chosen (k + 1) rest
    if k ∈ chosen then (i :: r.1, r.2) else (r.1, i :: r.2)

/-- The run enters the destination queue before or after its frames (R46). -/
def placeRun (p : Position) (run queue : List Nat) : List Nat :=
  match p with
  | .head => run ++ queue
  | .tail => queue ++ run

/-- The chosen frames leave the source line's queues for those of the destination, in one event (R46, R47). -/
def moveChosen (src dst : LineNo) (p : Position) (chosen : List Candidate) (s : State) : State :=
  let u := splitQueue ((chosen.filter (·.urgent)).map Candidate.position) 0 (s.line src).tx.urgent
  let m := splitQueue ((chosen.filter (!·.urgent)).map Candidate.position) 0 (s.line src).tx.normal
  let s1 := s.modLine src (fun l => { l with tx := { l.tx with urgent := u.2, normal := m.2 } })
  let s2 := s1.modLine dst (fun l =>
    { l with tx := { l.tx with urgent := placeRun p u.1 l.tx.urgent, normal := placeRun p m.1 l.tx.normal } })
  (u.1 ++ m.1).foldl (fun t i => t.modFrame i (fun r => { r with line := dst })) s2

/-- The frames a REDIRECT moves: the oldest candidates, as many as the room takes (R46). -/
def chosenFrames (s : State) (src dst : LineNo) (q : Selector) : List Candidate :=
  (oldestFirst (candidates s src q)).take (redirectRoom s dst)

/-- REDIRECT (R45 to R47). -/
def redirectBody (tag : Byte) (ps : List Byte) (s : State) : State :=
  match ps with
  | [source, destination, selector, position] =>
    match lineField source, lineField destination with
    | some src, some dst =>
      match selectorField selector, positionField position with
      | some q, some p =>
        if src = dst then refuse .redirect tag .badValue s
        else if (s.line dst).state ≠ .opened then refuse .redirect tag .wrongState s
        else if (s.line src).state = .closed then refuse .redirect tag .wrongState s
        else
          let chosen := chosenFrames s src dst q
          let remaining := (candidates s src q).length - chosen.length
          replyOk .redirect tag [octet chosen.length, octet remaining]
            (settleLine false dst (settleLine false src (moveChosen src dst p chosen s)))
      | _, _ => refuse .redirect tag .badValue s
    | _, _ => refuse .redirect tag .badLine s
  | _ => s

/-! ## Execution at the head (R171, R172, R174) -/

/-- The body of a command. -/
def commandBody : CommandCode → Byte → List Byte → State → State
  | .identify => identifyBody
  | .setDevice => setDeviceBody
  | .queryDevice => queryDeviceBody
  | .resetDevice => resetDeviceBody
  | .openLine => openLineBody
  | .closeLine => closeLineBody
  | .queryLine => queryLineBody
  | .ackCondition => ackConditionBody
  | .sendBreak => sendBreakBody
  | .seekLine => seekLineBody
  | .cancelFrame => cancelFrameBody
  | .redirect => redirectBody
  | .setLine => setLineBody

/-- A command of a known code is executed (R172 check 2): its body if its parameters have the exact length, BAD_FORMAT
otherwise; then its execution ends. -/
def runKnown (c : CommandCode) (body : Byte → List Byte → State → State) (payload : List Byte) (s : State) : State :=
  match payload with
  | _ :: tag :: ps => endExecution (if ps.length = c.paramLength then body tag ps s else refuse c tag .badFormat s)
  | _ => endExecution (refuse c 0 .badFormat s)

/-- A COMMAND with no octet is refused BAD_FORMAT with code and tag 00h; one with an unknown code UNKNOWN_COMMAND, with tag
00h if it holds none (R172). -/
def runUnknown (payload : List Byte) (s : State) : State :=
  match payload with
  | [] => endExecution (joinReply { code := 0, tag := 0, status := .badFormat, results := [] } s)
  | code :: rest =>
    endExecution (joinReply { code := code, tag := rest.head?.getD 0, status := .unknownCommand, results := [] } s)

/-- The COMMAND record at the head is executed, whatever its code (R171). -/
def runCommand (payload : List Byte) (s : State) : State :=
  match commandOf payload with
  | none => runUnknown payload s
  | some c => runKnown c (commandBody c) payload s

/-- A RESET_DEVICE whose payload holds its code, its tag and no parameter needs no reply place (R174). -/
def isPlainReset (payload : List Byte) : Bool :=
  decide (commandOf payload = some .resetDevice) && decide (payload.length = 2)

/-- A command stalls when the occupied count has reached 16 (R174). -/
def commandStalls (payload : List Byte) (s : State) : Bool :=
  decide (Config.replyPlaces ≤ s.occupied) && !isPlainReset payload

/-- A command that is to be taken: executed or stalled (R174). -/
def takeCommand (run : List Byte → State → State) (payload : List Byte) (s : State) : State :=
  if commandStalls payload s then stallHead s else run payload s

end Sys2Proof.Machine
end

