-- ==== Sys2Proof/Machine/Reception.lean ====
section
/-! DEFINITION. Reception on HRXD, record by record (R152). -/

namespace Sys2Proof.Machine

/-- The search for a start octet among these octets (R152): reading what follows the first one, or searching. -/
def searchAgain (octets : List Byte) : Reception :=
  match afterStart octets with
  | none => .searching
  | some rest => .reading rest

/-- A record with these octets after its start octet has ended: the octets already there that lie beyond it, or none if that
record is not the one in progress.  In searching any record may come; in reading, the octets already there begin it, or it lies
within them. -/
def Reception.beyond (r : Reception) (octets : List Byte) : Option (List Byte) :=
  match r with
  | .searching => some []
  | .reading collected =>
    if collected.isPrefixOf octets then some []
    else if octets.isPrefixOf collected then some (collected.drop octets.length)
    else none

/-- The octets beyond a checked record of this type, or none if it cannot come now (R152). -/
def Reception.beyondChecked (r : Reception) (t : HostType) (h : HostRecord) : Option (List Byte) :=
  if h.wf then r.beyond (hostOctets t h) else none

/-- A bad character comes behind these octets of a record: none of the octets already there lies beyond them. -/
def Reception.endsBehind (r : Reception) (octets : List Byte) : Bool :=
  match r with
  | .searching => true
  | .reading collected => collected.isPrefixOf octets

/-- Reception after a record that has ended in error, or none if it cannot end so now (R152).  By one of the three steps: the
octets after its start octet are searched again.  By a character with a framing error: they are not.

DESIGN CHOICE (assumption log 22): R152 does not say in which event a record is taken or discarded whose last octet is among
those searched again and so has come before.  Each is an event of its own here: reception stays in reading with the octets
behind the start octet found, the record is the next command of the host link, and other events may come in between. -/
def Reception.afterError (r : Reception) (octets : List Byte) (badCharacter : Bool) : Option Reception :=
  if recordErrorWf octets badCharacter then
    if badCharacter then (if r.endsBehind octets then some .searching else none)
    else (r.beyond octets).map (fun rest => searchAgain (octets ++ rest))
  else none

end Sys2Proof.Machine
end

