-- ==== Sys2Proof/Machine/Link.lean ====
section
/-! DEFINITION. The Host Link Controller: acknowledgements and releases, link reset and rewind, acceptance of host records,
going DOWN (Chapters 7 and 8). -/

namespace Sys2Proof.Machine

/-! ## Release on acknowledgement (R142, R143) -/

/-- A completion entry leaves the list; its record returns to the pool or its slot becomes free (R142). -/
def releaseEntry (s : State) (e : EntryRef) : State :=
  let s1 := { s with completion := s.completion.filter (· ≠ e) }
  match e with
  | .frame i => freeFrame i s1
  | .reject k => { s1 with rejects := Table.del s1.rejects k }

/-- A frame whose LAST segment is acknowledged leaves its receive queue and is released (R142). -/
def releaseReceived (i : Nat) (s : State) : State :=
  match s.frame i with
  | none => s
  | some r =>
    (freeFrame i s).modLine r.line (fun l => { l with rx := { l.rx with queue := l.rx.queue.filter (· ≠ i) } })

/-- What the source of an acknowledged record releases (Table 7.5). -/
def releaseRecord (s : State) (k : Retained) : State :=
  match k.content with
  | .reply => { s with replies := s.replies.filter (fun e => e.carriedBy ≠ some k.seq) }
  | .condition .. => s
  | .txDone entries => entries.foldl releaseEntry s
  | .closed .. => s
  | .rxSegment i _ _ _ last _ _ => if last then releaseReceived i s else s

/-- The acknowledged record frees a reply place. -/
def Retained.isReply (k : Retained) : Bool :=
  match k.content with
  | .reply => true
  | _ => false

/-- The acknowledged record frees a reject slot. -/
def Retained.freesSlot (k : Retained) : Bool :=
  match k.content with
  | .txDone entries => entries.any (fun e => match e with | .frame _ => false | .reject _ => true)
  | _ => false

/-- The line whose receive queue the acknowledged record shortens. -/
def Retained.emptiesLine (s : State) (k : Retained) : Option LineNo :=
  match k.content with
  | .rxSegment i _ _ _ true _ _ => (s.frame i).map FrameRecord.line
  | _ => none

/-- The record at the head, if it has been taken and stalls. -/
def HostLink.stalledHead (h : HostLink) : Option InboundRecord := if h.headStalled then h.inbound.head? else none

/-- The record that stalls at the head is to be taken again. -/
def offerAgain (s : State) : State := s.modLink (fun h => { h with headStalled := false })

/-- A stalled command is judged again at a release of a reply queue entry (R143, R174). -/
def rejudgeCommand (s : State) : State :=
  match s.link.stalledHead with
  | some { kind := .command, payload := p } => takeCommand runCommand p (offerAgain s)
  | _ => s

/-- A stalled first segment is judged again at a release of a reject slot and at each tick (R30, R143). -/
def rejudgeSegment (atTick : Bool) (s : State) : State :=
  match s.link.stalledHead with
  | some { kind := .txSegment, payload := p } => runSegment atTick p (offerAgain s)
  | _ => s

/-- What follows the releases in the event of an acknowledgement (R143): a stalled command, a stalled first segment, the lines
whose receive queues have become shorter, in the order of R143 (assumption log 7). -/
def afterReleases (acked : List Retained) (lines : List LineNo) (s : State) : State :=
  let s1 := if acked.any Retained.isReply then rejudgeCommand s else s
  let s2 := if acked.any Retained.freesSlot then rejudgeSegment false s1 else s1
  lines.foldl (fun t n => settleLine false n t) s2

/-! ## Acknowledgement (R161) -/

/-- The value of an acknowledge octet as a sequence number from V(A) to V(S), both included, or none (R161, R187). -/
def HostLink.ackValue (h : HostLink) (a : Byte) : Option Seq :=
  let v : Seq := a.setWidth 6
  if a.toNat < 64 ∧ (v - h.vA).toNat ≤ (h.vS - h.vA).toNat then some v else none

/-- The resend cursor after V(A) has moved to a (R164). -/
def HostLink.cursorAfter (h : HostLink) (a : Seq) : Option Seq :=
  match h.cursor with
  | none => none
  | some c =>
    if (c - h.vA).toNat < (a - h.vA).toNat then (if a = h.vS then none else some a) else some c

/-- The retransmission timeout in ms (R155). -/
def HostLink.retransMs (h : HostLink) : Nat := 10 * h.retransTimeout

/-- The link's part of an acknowledgement in range (R161): the records below a leave the list; progress resets the retry count
and restarts or stops the timer; the host grant is renewed. -/
def HostLink.acknowledge (h : HostLink) (a : Seq) (room : Byte) : HostLink :=
  let left := h.retain.drop (a - h.vA).toNat
  let h1 :=
    if a = h.vA then h
    else
      { h with
        retain := left, vA := a, cursor := h.cursorAfter a, retryCount := 0
        retransTimer := if left.isEmpty then none else startTimer false h.retransMs }
  { h1 with grantBase := a, grantRoom := min room.toNat 8 }

/-- An acknowledgement in range (R161, R142, R143): the acknowledged records leave the list, their sources release what they
carried one record after another, and the blocks concerned act on the releases. -/
def takeAck (a : Seq) (room : Byte) (s : State) : State :=
  let acked := s.link.retain.take (a - s.link.vA).toNat
  let lines := acked.filterMap (Retained.emptiesLine s)
  let s1 := s.modLink (fun h => h.acknowledge a room)
  afterReleases acked lines (acked.foldl releaseRecord s1)

/-- ACK_ERRORS is incremented (R170). -/
def countAckError (s : State) : State := s.modLink (fun h => { h with ackErrors := satInc h.ackErrors })

/-- The acknowledge and room fields of a checked host record other than HELLO and NAK in UP (R161). -/
def takeAckFields (r : HostRecord) (s : State) : State :=
  match s.link.ackValue r.ack with
  | none => countAckError s
  | some a => takeAck a r.room s

/-- The fields of a host NAK in UP (R163): in range an acknowledgement to n, then the resend from n. -/
def takeNak (r : HostRecord) (s : State) : State :=
  match s.link.ackValue r.ack with
  | none => countAckError s
  | some n =>
    (takeAck n r.room s).modLink (fun h =>
      if n = h.vS then h else { h with cursor := some n, retransTimer := startTimer false h.retransMs })

/-! ## Host sequenced records (R158, R159) -/

/-- Discarded with a NAK: it becomes pending unless the NAK-sent flag is set (R159). -/
def HostLink.makeNak (h : HostLink) : HostLink :=
  if h.nakSent then h else { h with nakPending := true, nakSent := true }

/-- s is one of V(R) − 1 to V(R) − 8 (Table 8.5). -/
def HostLink.isDuplicate (h : HostLink) (v : Seq) : Bool :=
  decide (1 ≤ (h.vR - v).toNat) && decide ((h.vR - v).toNat ≤ 8)

/-- The judgment of a host sequenced record (Table 8.5); a send sequence of 64 to 255 is any other value (R187). -/
def HostLink.judgeSequenced (h : HostLink) (kind : SequencedKind) (r : HostRecord) : HostLink :=
  let v : Seq := r.seq.setWidth 6
  if 64 ≤ r.seq.toNat then h.makeNak
  else if v = h.vR then
    if h.inbound.length < Config.inboundSlots then
      { h with
        inbound := h.inbound ++ [{ kind := kind, payload := r.payload }], vR := h.vR + 1, ackOwed := true, nakSent := false }
    else h.makeNak
  else if h.isDuplicate v then { h with ackOwed := true }
  else h.makeNak

/-! ## Link states (R153 to R157, R166, R167) -/

/-- The silence timeout in ms (R155). -/
def HostLink.silenceMs (h : HostLink) : Nat := 100 * h.silenceTimeout

/-- The silence timer restarts at a checked host record taken in UP; with timeout 0 it does not run (R166). -/
def HostLink.restartSilence (h : HostLink) : HostLink :=
  if h.silenceTimeout = 0 then h else { h with silenceTimer := startTimer false h.silenceMs }

/-- Going DOWN (R167), counted in LINK_DROPS by the expiry that causes it (R165, R166). -/
def HostLink.goDown (h : HostLink) : HostLink :=
  { h with
    state := .down, retransTimer := none, silenceTimer := none, cursor := none, nakPending := false, ackOwed := false
    nakSent := false, item := .resync, drops := satInc h.drops }

/-! ## Link reset and rewind (R144 to R147, R155, R156) -/

/-- The rewind of a receive frame (R145). -/
def FrameRecord.rewind (r : FrameRecord) : FrameRecord :=
  match r.state with
  | .delivering | .sent => { r with state := .queued, cursor := 0, resent := true }
  | _ => r

/-- The receive rewind of every line (R145). -/
def rewindReceive (s : State) : State :=
  { s with store := { s.store with frames := s.store.frames.map (fun p => (p.1, p.2.rewind)) } }

/-- The rewind of a CLOSED record of the line (R147). -/
def Line.rewindClosed (l : Line) : Line :=
  if l.state = .closed then { l with close := { l.close with reportPending := true } } else l

/-- The rewind of a retained record at its source (R146, R147); that of RX_SEGMENT records is the receive rewind. -/
def rewindRecord (s : State) (k : Retained) : State :=
  match k.content with
  | .reply =>
    { s with replies := s.replies.map (fun e => if e.carriedBy = some k.seq then { e with carriedBy := none } else e) }
  | .condition n _ => s.modLine n Line.rewindCondition
  | .txDone entries => entries.foldl (markEntry false) s
  | .closed n _ _ _ => s.modLine n Line.rewindClosed
  | .rxSegment .. => s

/-- The four parameters of a HELLO (Table 10.4). -/
structure HelloParams where
  retransTimeout : Nat
  retryLimit : Nat
  silenceTimeout : Nat
  segmentSize : Nat
  deriving DecidableEq, Repr

/-- The parameters of a HELLO in range, none if it is out of range (R155, R188). -/
def helloParams (r : HostRecord) : Option HelloParams :=
  match r.payload with
  | [t, k, q, size] =>
    match rangeField 1 255 t.toNat, rangeField 1 15 k.toNat, rangeField 16 240 size.toNat, rangeField 0 8 r.room.toNat with
    | some t1, some k1, some s1, some _ =>
      some { retransTimeout := t1, retryLimit := k1, silenceTimeout := q.toNat, segmentSize := s1 }
    | _, _, _, _ => none
  | _ => none

/-- Steps 2 to 8 of R156 at the link. -/
def HostLink.reset (p : HelloParams) (room : Byte) (h : HostLink) : HostLink :=
  { h with
    retain := [], vS := 0, vA := 0, vR := 0, retryCount := 0, cursor := none, retransTimer := none
    retransTimeout := p.retransTimeout, retryLimit := p.retryLimit, silenceTimeout := p.silenceTimeout
    segmentSize := p.segmentSize, grantBase := 0, grantRoom := room.toNat, nakSent := false, ackOwed := false
    nakPending := false, state := .up
    silenceTimer := if p.silenceTimeout = 0 then none else startTimer false (100 * p.silenceTimeout)
    item := .welcome }

/-- A link reset (R156): the rewind, oldest record first, then the link's own steps. -/
def linkReset (p : HelloParams) (room : Byte) (s : State) : State :=
  (rewindReceive (s.link.retain.foldl rewindRecord s)).modLink (HostLink.reset p room)

/-- RESYNC becomes the pending link-control item (R157). -/
def owingResync (s : State) : State := s.modLink (fun h => { h with item := .resync })

/-- A HELLO (R154, R155): in range a link reset, in DOWN and in UP alike; out of range answered with RESYNC, and in UP the
silence timer restarts (R166). -/
def takeHello (r : HostRecord) (s : State) : State :=
  match helloParams r with
  | some p => linkReset p r.room s
  | none => owingResync (s.modLink (fun h => if h.state = .up then h.restartSilence else h))

/-! ## Taking a checked record -/

/-- A checked host record other than HELLO by link state (R154, R166): in DOWN answered with RESYNC; in UP the silence timer
restarts and the record is taken. -/
def byLinkState (take : State → State) (s : State) : State :=
  match s.link.state with
  | .down => owingResync s
  | .up => take (s.modLink HostLink.restartSilence)

/-- The search goes on among octets that are already there (R152): a start octet among them begins a record. -/
def resumeSearch (octets : List Byte) (s : State) : State :=
  match afterStart octets with
  | none => s
  | some rest => s.modLink (fun h => { h with reception := .reading rest })

/-- A checked record is taken in the event in which its last octet completes (R152), the part not being held in reset: reception
returns to searching, the record is taken, the free serializer chooses, and octets already there beyond the record are searched
(when a record among them comes: assumption log 22). -/
def takeChecked (t : HostType) (r : HostRecord) (take : State → State) (s : State) : State :=
  if s.rstLow then s
  else
    match s.link.reception.beyondChecked t r with
    | none => s
    | some rest => resumeSearch rest (serve false (take (s.modLink (fun h => { h with reception := .searching }))))

end Sys2Proof.Machine
end

