-- ==== Sys2Proof/Machine/CommandEvents.lean ====
section
/-! DEFINITION. Meanings of the rows executed at the head of the inbound buffer: TX_SEGMENT and the commands (R25, R171). -/

namespace Sys2Proof.Machine

/-- The payload of the COMMAND record that is to be taken at the head: there is one, it has not been taken and stalled, and
the part is not held in reset. -/
def State.commandAtHead (s : State) : Option (List Byte) :=
  if s.rstLow || s.link.headStalled then none
  else
    match s.link.inbound with
    | { kind := .command, payload := p } :: _ => some p
    | _ => none

/-- The event of a command at the head with this code, or with none, by this run of it (R171, R174); it comes about when such
a command is to be taken there. -/
def commandEvent (own : Option CommandCode) (run : List Byte → State → State) (s : State) : State :=
  match s.commandAtHead with
  | none => s
  | some p => if commandOf p = own then serve false (takeCommand run p s) else s

/-- The event of a command with a known code. -/
def knownEvent (c : CommandCode) (body : Byte → List Byte → State → State) (s : State) : State :=
  commandEvent (some c) (runKnown c body) s

/-- TX_SEGMENT (R25): the record at the head is taken whole. -/
def execTxSegment (s : State) : Host.Outcome State Fault Refusal :=
  .next (if s.rstLow || s.link.headStalled then s
    else
      match s.link.inbound with
      | { kind := .txSegment, payload := p } :: _ => serve false (runSegment false p s)
      | _ => s)

/-- UNKNOWN_COMMAND (R172). -/
def execUnknownCommand (s : State) : Host.Outcome State Fault Refusal := .next (commandEvent none runUnknown s)

/-- IDENTIFY (R176). -/
def execIdentify (s : State) : Host.Outcome State Fault Refusal := .next (knownEvent .identify identifyBody s)

/-- SET_DEVICE (R177). -/
def execSetDevice (s : State) : Host.Outcome State Fault Refusal := .next (knownEvent .setDevice setDeviceBody s)

/-- QUERY_DEVICE (R178). -/
def execQueryDevice (s : State) : Host.Outcome State Fault Refusal := .next (knownEvent .queryDevice queryDeviceBody s)

/-- RESET_DEVICE (R180). -/
def execResetDevice (s : State) : Host.Outcome State Fault Refusal := .next (knownEvent .resetDevice resetDeviceBody s)

/-- OPEN_LINE (R112). -/
def execOpenLine (s : State) : Host.Outcome State Fault Refusal := .next (knownEvent .openLine openLineBody s)

/-- CLOSE_LINE (R116, R121). -/
def execCloseLine (s : State) : Host.Outcome State Fault Refusal := .next (knownEvent .closeLine closeLineBody s)

/-- QUERY_LINE (R125). -/
def execQueryLine (s : State) : Host.Outcome State Fault Refusal := .next (knownEvent .queryLine queryLineBody s)

/-- ACK_CONDITION (R101). -/
def execAckCondition (s : State) : Host.Outcome State Fault Refusal := .next (knownEvent .ackCondition ackConditionBody s)

/-- SEND_BREAK (R66). -/
def execSendBreak (s : State) : Host.Outcome State Fault Refusal := .next (knownEvent .sendBreak sendBreakBody s)

/-- SEEK_LINE (R84). -/
def execSeekLine (s : State) : Host.Outcome State Fault Refusal := .next (knownEvent .seekLine seekLineBody s)

/-- CANCEL_FRAME (R43). -/
def execCancelFrame (s : State) : Host.Outcome State Fault Refusal := .next (knownEvent .cancelFrame cancelFrameBody s)

/-- REDIRECT (R45, R46). -/
def execRedirect (s : State) : Host.Outcome State Fault Refusal := .next (knownEvent .redirect redirectBody s)

/-- SET_LINE (R113). -/
def execSetLine (s : State) : Host.Outcome State Fault Refusal := .next (knownEvent .setLine setLineBody s)

end Sys2Proof.Machine
end

