-- ==== Sys2Proof/Machine/ResetEvents.lean ====
section
/-! DEFINITION. Meanings of the rows of power-on reset and of the Millisecond Time Base (Chapter 9). -/

namespace Sys2Proof.Machine

/-- The host-link rate the straps select (Table 8.1). -/
def strapRate (hrate1 hrate0 : Bool) : HostRate :=
  match hrate1, hrate0 with
  | false, false => .r115200
  | false, true => .r460800
  | true, false => .r921600
  | true, true => .r3000000

/-- POWER_ON_RESET (R182): every block in its power-on state, in one event, whatever the state before; the input pins keep
their levels (R97, R106). -/
def execPowerOnReset (hrate1 hrate0 : Bool) (s : State) : Host.Outcome State Fault Refusal :=
  .next (State.powerOn (strapRate hrate1 hrate0) (s.lines.map (fun l => Line.reset l.carrier l.clear)) s.pending)

/-- RST_ASSERTED (R182): a record being sent is cut off; the part takes no event until power-on reset. -/
def execRstAsserted (s : State) : Host.Outcome State Fault Refusal :=
  .next { s with rstLow := true, link := { s.link with sending := none } }

/-- The age of a record advances at a tick in FILLING and READY, and holds at 65535 (R12). -/
def FrameRecord.tick (r : FrameRecord) : FrameRecord :=
  match r.state with
  | .filling | .ready => { r with age := satInc r.age }
  | _ => r

/-- The timers of a line count a tick, and its judgment of ages at that tick is to be taken (R40, R57, R67, R120, R185). -/
def Line.tick (l : Line) : Line :=
  { l with
    tx := { l.tx with
      breakTimer := tickTimer l.tx.breakTimer, turnaroundTimer := tickTimer l.tx.turnaroundTimer, expiryDue := true }
    close := { l.close with drainTimer := tickTimer l.close.drainTimer } }

/-- The timers of the link count a tick (R165, R166). -/
def HostLink.tick (h : HostLink) : HostLink :=
  { h with retransTimer := tickTimer h.retransTimer, silenceTimer := tickTimer h.silenceTimer }

/-- What a tick counts: ages and timers (Table 9.5). -/
def countTick (s : State) : State :=
  { s with
    store := { s.store with frames := s.store.frames.map (fun p => (p.1, p.2.tick)) }
    lines := s.lines.map Line.tick
    link := s.link.tick }

/-- TICK (R184): ages and timers count it, and a stalled first segment is judged again (R30).  The expiries of the tick are the
events of their own rows.
DESIGN CHOICE (log 11, unsafe): R184 leaves the blocks' events at one tick unordered; here the ages advance first, then the stalled
segment is judged, and every expiry of the tick comes after that judgment. -/
def execTick (s : State) : Host.Outcome State Fault Refusal :=
  .next (if s.rstLow then s else serve true (rejudgeSegment true (countTick s)))

end Sys2Proof.Machine
end

