-- ==== Sys2Proof/Machine/HostEvents.lean ====
section
/-! DEFINITION. Meanings of the rows of the host link: records from the host, timer expiries, the end of a sending
(Chapter 8). -/

namespace Sys2Proof.Machine

/-- RECEIVE_RECORD_ERROR (R152): the record is discarded whole, LINK_CRC_ERRORS counts it once, and the search resumes. -/
def execReceiveRecordError (octets : List Byte) (badCharacter : Bool) (s : State) : Host.Outcome State Fault Refusal :=
  .next (if s.rstLow then s
    else
      match s.link.reception.afterError octets badCharacter with
      | none => s
      | some x => serve false (s.modLink (fun h => { h with reception := x, crcErrors := satInc h.crcErrors })))

/-- HELLO (R155, R156). -/
def execHello (r : HostRecord) (s : State) : Host.Outcome State Fault Refusal :=
  .next (takeChecked .hello r (takeHello r) s)

/-- HOST_ACK (R161). -/
def execHostAck (r : HostRecord) (s : State) : Host.Outcome State Fault Refusal :=
  .next (takeChecked .ack r (byLinkState (takeAckFields r)) s)

/-- HOST_NAK (R163). -/
def execHostNak (r : HostRecord) (s : State) : Host.Outcome State Fault Refusal :=
  .next (takeChecked .nak r (byLinkState (takeNak r)) s)

/-- The record type of a sequenced record (Table 8.2). -/
def hostTypeOf : SequencedKind → HostType
  | .command => .command
  | .txSegment => .txSegment

/-- HOST_SEQUENCED_RECORD (R158): the acknowledge and room fields first, then the judgment of the send sequence. -/
def execHostSequencedRecord (kind : SequencedKind) (r : HostRecord) (s : State) : Host.Outcome State Fault Refusal :=
  .next (takeChecked (hostTypeOf kind) r
    (byLinkState (fun t => (takeAckFields r t).modLink (fun h => h.judgeSequenced kind r))) s)

/-- The link at a retransmission timer expiry (R165). -/
def HostLink.retransExpiry (h : HostLink) : HostLink :=
  let h1 := { h with retryCount := h.retryCount + 1 }
  if h.retryCount + 1 ≤ h.retryLimit then
    { h1 with
      cursor := some h.vA, retransmissions := satInc h.retransmissions, retransTimer := startTimer true h.retransMs }
  else h1.goDown

/-- RETRANSMISSION_TIMER_EXPIRY (R165). -/
def execRetransmissionTimerExpiry (s : State) : Host.Outcome State Fault Refusal :=
  .next (if s.rstLow = false ∧ s.link.state = .up ∧ s.link.retransTimer = some 0 then
    serve true (s.modLink HostLink.retransExpiry)
  else s)

/-- SILENCE_TIMER_EXPIRY (R166, R167). -/
def execSilenceTimerExpiry (s : State) : Host.Outcome State Fault Refusal :=
  .next (if s.rstLow = false ∧ s.link.state = .up ∧ s.link.silenceTimer = some 0 then
    serve true (s.modLink HostLink.goDown)
  else s)

/-- SENDING_END (R168): the serializer is free and chooses again. -/
def execSendingEnd (s : State) : Host.Outcome State Fault Refusal :=
  .next (if s.rstLow = false ∧ s.link.sending.isSome then
    serve false (s.modLink (fun h => { h with sending := none }))
  else s)

end Sys2Proof.Machine
end

