-- ==== Sys2Proof/Machine/LineEvents.lean ====
section
/-! DEFINITION. Meanings of the rows of the Line Engines: transmitter events, timer expiries of a line, its pins, and receiver
events (Chapters 2 to 6). -/

namespace Sys2Proof.Machine

/-- An event of line n: it comes about when the part is not held in reset and the line is in the position the event's rule
names; then its effect, what follows on the line in the same event, and the free serializer's choice. -/
def lineEvent (atTick : Bool) (n : LineNo) (due : Line → Bool) (effect : State → State) (s : State) : State :=
  if s.rstLow = false ∧ due (s.line n) = true then serve atTick (settleLine atTick n (effect s)) else s

/-- The effect on the transmitter's current frame, if it holds one. -/
def onCurrent (n : LineNo) (effect : Nat → State → State) (s : State) : State :=
  match (s.line n).tx.current with
  | none => s
  | some i => effect i s

/-! ## Transmitter -/

/-- LEADIN_END (R61, R64). -/
def execLeadinEnd (n : LineNo) (s : State) : Host.Outcome State Fault Refusal :=
  .next (lineEvent false n (fun l => decide (l.tx.state = .leadin)) (onCurrent n (endLeadin n)) s)

/-- DATA_OCTET_BOUNDARY (R63). -/
def execDataOctetBoundary (n : LineNo) (s : State) : Host.Outcome State Fault Refusal :=
  .next (lineEvent false n (fun l => decide (l.tx.state = .data)) (onCurrent n (octetBoundary n)) s)

/-- FRAME_END (R65). -/
def execFrameEnd (n : LineNo) (s : State) : Host.Outcome State Fault Refusal :=
  .next (lineEvent false n (fun l => decide (l.tx.state = .trailer)) (onCurrent n (endFrame n)) s)

/-- GAP_END (R59, R61, R88). -/
def execGapEnd (n : LineNo) (s : State) : Host.Outcome State Fault Refusal :=
  .next (lineEvent false n (fun l => decide (l.tx.state = .gap)) (fun t => t.modLine n endGap) s)

/-- BREAK_TIMER_EXPIRY (R67): the break ends with the reply OK. -/
def execBreakTimerExpiry (n : LineNo) (s : State) : Host.Outcome State Fault Refusal :=
  .next (lineEvent true n (fun l => decide (l.tx.state = .breaking) && decide (l.tx.breakTimer = some 0)) (endBreak n .ok) s)

/-- TURNAROUND_TIMER_EXPIRY (R57): the hold ends. -/
def execTurnaroundTimerExpiry (n : LineNo) (s : State) : Host.Outcome State Fault Refusal :=
  .next (lineEvent true n (fun l => decide (l.tx.turnaroundTimer = some 0))
    (fun t => t.modLine n (fun l => { l with tx := { l.tx with turnaroundTimer := none } })) s)

/-- EXPIRY (R40, R41): the line's judgment of ages at the tick that has come. -/
def execExpiry (n : LineNo) (s : State) : Host.Outcome State Fault Refusal :=
  .next (lineEvent true n (fun l => l.tx.expiryDue)
    (fun t => expireLine n (t.modLine n (fun l => { l with tx := { l.tx with expiryDue := false } }))) s)

/-- DRAIN_TIMER_EXPIRY (R120): the flush handling, and transmit mode FLUSH. -/
def execDrainTimerExpiry (n : LineNo) (s : State) : Host.Outcome State Fault Refusal :=
  .next (lineEvent true n (fun l => decide (l.state = .closing) && decide (l.close.drainTimer = some 0)) (flushHandling n) s)

/-! ## Pins -/

/-- CLEAR_CHANGE (R56, R97): live CLEAR follows LCLRn, also while RST# is low. -/
def execClearChange (n : LineNo) (high : Bool) (s : State) : Host.Outcome State Fault Refusal :=
  .next (
    let t := s.modLine n (fun l => { l with clear := high })
    if s.rstLow then t else if (s.line n).clear = high then s else serve false (settleLine false n t))

/-- CARRIER under GATE_RX (R87): off it gates the receiver, on it makes the entry judgment of a GATED one. -/
def carrierEffect (n : LineNo) (high : Bool) (s : State) : State :=
  if (s.line n).config.gateRx then
    if high then s.modLine n (fun l => if l.rx.state = .gated then l.enterListening else l)
    else gateReceiver n s
  else s

/-- CARRIER_CHANGE (R87, R97): live CARRIER follows LCARn, also while RST# is low. -/
def execCarrierChange (n : LineNo) (high : Bool) (s : State) : Host.Outcome State Fault Refusal :=
  .next (
    let t := s.modLine n (fun l => { l with carrier := high })
    if s.rstLow then t
    else if (s.line n).carrier = high then s
    else serve false (settleLine false n (carrierEffect n high t)))

/-! ## Receiver -/

/-- The receiver is in this state, in gap framing. -/
def inGap (x : RxState) (l : Line) : Bool := !l.isSync && decide (l.rx.state = x)

/-- The receiver is in this state, in sync framing. -/
def inSync (x : RxState) (l : Line) : Bool := l.isSync && decide (l.rx.state = x)

/-- Characters are read in gap framing, in IDLE, ASSEMBLING and DISCARD (R75). -/
def Line.readsCharacters (l : Line) : Bool := inGap .idle l || inGap .assembling l || inGap .discard l

/-- A character is in progress (R75). -/
def Line.inCharacter (l : Line) : Bool := l.readsCharacters && decide (l.rx.character = .inProgress)

/-- The receiver is waiting for a start bit (R75). -/
def Line.awaitsStart (l : Line) : Bool := l.readsCharacters && decide (l.rx.character ≠ .inProgress)

/-- A break may be beginning (R79): the last character read is null with a framing error, and LRXDn has stayed spacing since. -/
def Line.mayBreak (l : Line) : Bool := l.readsCharacters && decide (l.rx.character = .heldSpacing)

/-- A character starts (R75): in IDLE it begins a frame (R76). -/
def startCharacter (n : LineNo) (s : State) : State :=
  State.modLine
    (match (s.line n).rx.state with
    | .idle => beginFrame n 0 [] s
    | _ => s) n (Line.readTo .inProgress)

/-- CHARACTER_START (R75, R76). -/
def execCharacterStart (n : LineNo) (s : State) : Host.Outcome State Fault Refusal :=
  .next (lineEvent false n Line.awaitsStart (startCharacter n) s)

/-- The parity of a gap-framing line. -/
def Line.parity (l : Line) : Parity :=
  match l.config.framing with
  | .gap p _ _ => p
  | .sync .. => .none

/-- The character in progress completes: it is kept in ASSEMBLING alone and consumed in DISCARD (R76, R78); in every state a null character
with a framing error may begin a break (R79). -/
def completeCharacter (n : LineNo) (data : OctetBits) (parityBit stopBit : Bool) (s : State) : State :=
  let p := (s.line n).parity
  State.modLine
    (match (s.line n).rx.state with
    | .assembling => assembleCharacter n (receivedCharacter p data parityBit stopBit) s
    | _ => s) n (Line.readTo (if nullCharacter p data parityBit stopBit then .heldSpacing else .waiting))

/-- CHARACTER_COMPLETE (R75, R76, R79). -/
def execCharacterComplete (n : LineNo) (data : OctetBits) (parityBit stopBit : Bool) (s : State) :
    Host.Outcome State Fault Refusal :=
  .next (lineEvent false n Line.inCharacter (completeCharacter n data parityBit stopBit) s)

/-- A gap on the line (R77, R78). -/
def takeGap (n : LineNo) (s : State) : State :=
  match (s.line n).rx.state with
  | .assembling => endGapFrame n s
  | _ => s.modLine n (fun l => { l with rx := { l.rx with state := .idle } })

/-- RECEIVE_GAP (R77, R78): no gap passes while a character is in progress, since it is measured from the end of the last
character (R75). -/
def execReceiveGap (n : LineNo) (s : State) : Host.Outcome State Fault Refusal :=
  .next (lineEvent false n (fun l => (inGap .assembling l || inGap .discard l) && !l.inCharacter) (takeGap n) s)

/-- BREAK_DETECTED (R79): the further character time of spacing ends behind a null character with a framing error. -/
def execBreakDetected (n : LineNo) (s : State) : Host.Outcome State Fault Refusal :=
  .next (lineEvent false n Line.mayBreak (detectBreak n) s)

/-- LRXDn returns to marking: BREAK ends in DISCARD; behind a null character it keeps a break from being detected (R79). -/
def returnToMarking (n : LineNo) (s : State) : State :=
  match (s.line n).rx.state with
  | .breaking => s.modLine n (fun l => { l with rx := { l.rx with state := .discard, character := .waiting } })
  | _ => s.modLine n (Line.readTo .waiting)

/-- LINE_RETURNS_TO_MARKING (R79; behind a null character log 15). -/
def execLineReturnsToMarking (n : LineNo) (s : State) : Host.Outcome State Fault Refusal :=
  .next (lineEvent false n (fun l => inGap .breaking l || l.mayBreak) (returnToMarking n) s)

/-- The sync pattern of a line; in gap framing it has none. -/
def Line.pattern (l : Line) : Option Nat :=
  match l.config.framing with
  | .gap .. => none
  | .sync _ pattern _ => some pattern

/-- The search over these bits finds the line's sync pattern with the last of them, and not before (R81). -/
def Line.matchesPattern (bits : List Bool) (l : Line) : Bool :=
  l.pattern.any (fun pattern => seekPattern pattern [] bits = some [])

/-- PATTERN_MATCH (R81): the bit that follows begins the next octet. -/
def execPatternMatch (seen : LineBits) (s : State) : Host.Outcome State Fault Refusal :=
  .next (lineEvent false seen.line (fun l => inSync .seek l && l.matchesPattern seen.bits)
    (fun t => t.modLine seen.line (fun l => { l with rx := { l.rx with state := .synced, patternRequired := false } })) s)

/-- PAIR (R82). -/
def execPair (n : LineNo) (high low : OctetBits) (s : State) : Host.Outcome State Fault Refusal :=
  .next (lineEvent false n (inSync .synced) (takePair n (receivedOctet high) (receivedOctet low)) s)

/-- An octet in sync ASSEMBLING or DISCARD (R83). -/
def takeSyncOctet (n : LineNo) (b : Byte) (s : State) : State :=
  match (s.line n).rx.state with
  | .assembling => assembleSyncOctet n b s
  | _ => consumeSyncOctet n s

/-- SYNC_OCTET (R83). -/
def execSyncOctet (n : LineNo) (bits : OctetBits) (s : State) : Host.Outcome State Fault Refusal :=
  .next (lineEvent false n (fun l => inSync .assembling l || inSync .discard l) (takeSyncOctet n (receivedOctet bits)) s)

end Sys2Proof.Machine
end

