-- ==== Sys2Proof/Machine/Dispatch.lean ====
section
/-! DEFINITION. One arm for each command of the block: its meaning. -/

namespace Sys2Proof.Machine

def exec (i : Instr) (s : State) : Host.Outcome State Fault Refusal :=
  match i with
  | .powerOnReset h1 h0 => Sys2Proof.Machine.execPowerOnReset h1 h0 s
  | .tick => Sys2Proof.Machine.execTick s
  | .receiveRecordError octets bad => Sys2Proof.Machine.execReceiveRecordError octets bad s
  | .hello r => Sys2Proof.Machine.execHello r s
  | .hostAck r => Sys2Proof.Machine.execHostAck r s
  | .hostNak r => Sys2Proof.Machine.execHostNak r s
  | .hostSequencedRecord kind r => Sys2Proof.Machine.execHostSequencedRecord kind r s
  | .txSegment => Sys2Proof.Machine.execTxSegment s
  | .unknownCommand => Sys2Proof.Machine.execUnknownCommand s
  | .identify => Sys2Proof.Machine.execIdentify s
  | .setDevice => Sys2Proof.Machine.execSetDevice s
  | .queryDevice => Sys2Proof.Machine.execQueryDevice s
  | .resetDevice => Sys2Proof.Machine.execResetDevice s
  | .openLine => Sys2Proof.Machine.execOpenLine s
  | .closeLine => Sys2Proof.Machine.execCloseLine s
  | .queryLine => Sys2Proof.Machine.execQueryLine s
  | .ackCondition => Sys2Proof.Machine.execAckCondition s
  | .sendBreak => Sys2Proof.Machine.execSendBreak s
  | .seekLine => Sys2Proof.Machine.execSeekLine s
  | .cancelFrame => Sys2Proof.Machine.execCancelFrame s
  | .redirect => Sys2Proof.Machine.execRedirect s
  | .setLine => Sys2Proof.Machine.execSetLine s
  | .leadinEnd n => Sys2Proof.Machine.execLeadinEnd n s
  | .dataOctetBoundary n => Sys2Proof.Machine.execDataOctetBoundary n s
  | .frameEnd n => Sys2Proof.Machine.execFrameEnd n s
  | .gapEnd n => Sys2Proof.Machine.execGapEnd n s
  | .breakTimerExpiry n => Sys2Proof.Machine.execBreakTimerExpiry n s
  | .turnaroundTimerExpiry n => Sys2Proof.Machine.execTurnaroundTimerExpiry n s
  | .expiry n => Sys2Proof.Machine.execExpiry n s
  | .drainTimerExpiry n => Sys2Proof.Machine.execDrainTimerExpiry n s
  | .clearChange n high => Sys2Proof.Machine.execClearChange n high s
  | .carrierChange n high => Sys2Proof.Machine.execCarrierChange n high s
  | .characterStart n => Sys2Proof.Machine.execCharacterStart n s
  | .characterComplete n data parityBit stopBit => Sys2Proof.Machine.execCharacterComplete n data parityBit stopBit s
  | .receiveGap n => Sys2Proof.Machine.execReceiveGap n s
  | .breakDetected n => Sys2Proof.Machine.execBreakDetected n s
  | .lineReturnsToMarking n => Sys2Proof.Machine.execLineReturnsToMarking n s
  | .patternMatch seen => Sys2Proof.Machine.execPatternMatch seen s
  | .pair n high low => Sys2Proof.Machine.execPair n high low s
  | .syncOctet n bits => Sys2Proof.Machine.execSyncOctet n bits s
  | .retransmissionTimerExpiry => Sys2Proof.Machine.execRetransmissionTimerExpiry s
  | .silenceTimerExpiry => Sys2Proof.Machine.execSilenceTimerExpiry s
  | .sendingEnd => Sys2Proof.Machine.execSendingEnd s
  | .rstAsserted => Sys2Proof.Machine.execRstAsserted s

end Sys2Proof.Machine
end

