-- ==== Sys2Proof/Machine/Pins.lean ====
section
/-! DEFINITION. The output pins, each a function of the state (Table 0.5, Table 3.1, R59, R60, R69, R70, R182). -/

namespace Sys2Proof.Machine

/-- What LTXDn carries (Table 3.1). -/
inductive LineSignal where
  | marking
  | spacing
  /-- this sync pattern again and again (R60) -/
  | idlePatterns (pattern : Nat)
  /-- this many lead-in patterns, behind the pattern that is on the line when the frame is taken (R61) -/
  | leadinPatterns (pattern count : Nat)
  /-- the pattern in progress alone: a lead-in after an abort request (R64) -/
  | patternInProgress (pattern : Nat)
  /-- the length field of a sync-framing frame, high octet first (R61) -/
  | lengthField (high low : Byte)
  | dataOctet (b : Byte)
  /-- the octet boundary at the start of DATA -/
  | betweenOctets
  | crcOctets (high low : Byte)
  /-- marking for this many character times: GAP in gap framing (R59) -/
  | gapMarking (characters : Nat)
  /-- one closing pattern: GAP in sync framing (R61) -/
  | closingPattern (pattern : Nat)
  deriving DecidableEq, Repr

/-- LTXDn in DATA: the data octet in progress; before the first, the length field in sync framing. -/
def dataSignal (s : State) (l : Line) : LineSignal :=
  match l.tx.octet with
  | some b => .dataOctet b
  | none =>
    if l.isSync then
      match (l.tx.current.bind s.frame) with
      | some r => .lengthField (octet (r.announced / 256)) (octet r.announced)
      | none => .betweenOctets
    else .betweenOctets

/-- LTXDn between frames: marking in gap framing (R59), the idle pattern stream in sync framing (R60). -/
def Framing.idleSignal : Framing → LineSignal
  | .gap .. => .marking
  | .sync _ pattern _ => .idlePatterns pattern

/-- LTXDn in LEADIN: the lead-in of sync framing (R61), or, once the outcome of the frame is fixed, the pattern in progress and
none of those that remained (Table 3.4); gap framing has no lead-in. -/
def Framing.leadinSignal (aborted : Bool) : Framing → LineSignal
  | .gap .. => .marking
  | .sync _ pattern leadIn => if aborted then .patternInProgress pattern else .leadinPatterns pattern leadIn

/-- An abort request has reached the transmitter's current frame: its outcome is fixed (R64). -/
def aborted (s : State) (l : Line) : Bool := (l.tx.current.bind s.frame).any (fun r => r.outcome.isSome)

/-- LTXDn in GAP: marking for the line's gap (R59), or one closing pattern (R61). -/
def Framing.gapSignal : Framing → LineSignal
  | .gap _ _ g => .gapMarking g
  | .sync _ pattern _ => .closingPattern pattern

/-- LTXDn of a line (Table 3.1): marking while RST# is low (R182). -/
def State.ltxd (s : State) (n : LineNo) : LineSignal :=
  let l := s.line n
  if s.rstLow then .marking
  else
    match l.tx.state with
    | .off => .marking
    | .idle => l.config.framing.idleSignal
    | .held => l.config.framing.idleSignal
    | .leadin => l.config.framing.leadinSignal (aborted s l)
    | .data => dataSignal s l
    | .trailer => .crcOctets (octet (l.tx.trailer.toNat / 256)) (octet l.tx.trailer.toNat)
    | .gap => l.config.framing.gapSignal
    | .breaking => .spacing

/-- A candidate frame that CLEAR off under GATE_TX alone keeps from starting (R69). -/
def heldByClearAlone (s : State) (l : Line) : Bool :=
  decide (l.tx.state = .held) && l.tx.pendingBreak.isNone && (candidateFrame s l).isSome && l.clearGate && !l.held

/-- LREQn asserted (R69). -/
def State.lreq (s : State) (n : LineNo) : Bool :=
  let l := s.line n
  if s.rstLow || decide (l.state = .closed) then false
  else
    match l.config.requestMode with
    | .line => true
    | .frame =>
      match l.tx.state with
      | .leadin | .data | .trailer => true
      | .gap => !l.tx.gapAfterBreak
      | .held => heldByClearAlone s l
      | _ => false

/-- LDRVn asserted (R70). -/
def State.ldrv (s : State) (n : LineNo) : Bool :=
  let l := s.line n
  if s.rstLow || decide (l.state = .closed) then false
  else
    match l.config.duplex with
    | .full => true
    | .half _ =>
      match l.tx.state with
      | .leadin | .data | .trailer | .gap | .breaking => true
      | _ => false

/-- The part drives LCLKn (R60, R112, R122): clock source INTERNAL of a line that is not CLOSED. -/
def State.lclkDriven (s : State) (n : LineNo) : Bool :=
  let l := s.line n
  if s.rstLow || decide (l.state = .closed) then false
  else
    match l.config.framing with
    | .gap .. => false
    | .sync c _ _ => decide (c = .internal)

/-- The octets of the record on HTXD, none while it is marking between records (R149, R168, R182). -/
def State.htxd (s : State) : Option (List Byte) := if s.rstLow then none else s.link.sending.map PartRecord.octets

/-- Bit rates of the rate codes (Table 6.2). -/
def rateOf (code : Nat) : Nat :=
  [300, 600, 1200, 2400, 4800, 9600, 19200, 38400, 57600, 76800, 115200, 230400, 460800, 921600].getD code 0

/-- Host-link bit rates (Table 8.1). -/
def HostRate.bits : HostRate → Nat
  | .r115200 => 115200
  | .r460800 => 460800
  | .r921600 => 921600
  | .r3000000 => 3000000

/-- Bit times of one octet of a line: a character (R59), or eight bits (R60). -/
def Line.characterBits (l : Line) : Nat :=
  match l.config.framing with
  | .gap p stop _ => Machine.characterBits p stop
  | .sync .. => 8

/-! ## Bits -/

/-- The bits of one octet in the line's framing (R59, R60). -/
def Framing.octetBits : Framing → Byte → List Bool
  | .gap p stop _ => characterOnLine p stop
  | .sync .. => octetOnLine

/-- Bit times of a number of character times in the line's framing (R59). -/
def Framing.bitTimes : Framing → Nat → Nat
  | .gap p stop _, k => k * characterBits p stop
  | .sync .., k => k * 8

/-- The bits a signal puts on LTXDn (R59 to R61).  A level that lasts until an event ends it is one bit here, and the idle
stream one of its patterns: how often they come is time (assumption log 15). -/
def LineSignal.bits (f : Framing) : LineSignal → List Bool
  | .marking => [true]
  | .spacing => [false]
  | .idlePatterns pattern => patternOnLine pattern
  | .patternInProgress pattern => patternOnLine pattern
  | .leadinPatterns pattern count => (List.replicate count (patternOnLine pattern)).flatten
  | .lengthField high low => f.octetBits high ++ f.octetBits low
  | .dataOctet b => f.octetBits b
  | .betweenOctets => []
  | .crcOctets high low => f.octetBits high ++ f.octetBits low
  | .gapMarking characters => List.replicate (f.bitTimes characters) true
  | .closingPattern pattern => patternOnLine pattern

/-- The bits on LTXDn of a line. -/
def State.ltxdBits (s : State) (n : LineNo) : List Bool := (s.ltxd n).bits (s.line n).config.framing

/-- The bits on HTXD (R149): the characters of the record being sent, back to back, or marking. -/
def State.htxdBits (s : State) : List Bool := s.htxd.elim [true] (fun octets => octets.flatMap hostCharacter)

end Sys2Proof.Machine
end

