-- ==== Sys2Proof/Safety.lean ====
section
/-! DEFINITION. What the claims are stated in: the laws every step keeps, the position in which a command is executed, and what
the rules leave alone. -/

namespace Sys2Proof.Machine

/-! ## Laws of the host link (R160 to R166, R174) -/

/-- The retain list holds at most 8 records, numbered consecutively from V(A) up to V(S) (R162). -/
abbrev HostLink.windowKept (h : HostLink) : Prop :=
  h.retain.length ≤ 8 ∧ h.vS = h.vA + BitVec.ofNat 6 h.retain.length ∧
    h.retain.map Retained.seq = (List.range h.retain.length).map (fun k => h.vA + BitVec.ofNat 6 k)

/-- The resend cursor names a retained record, and is none in DOWN (R164, R167). -/
abbrev HostLink.cursorKept (h : HostLink) : Prop :=
  ∀ c ∈ h.cursor, h.state = .up ∧ (c - h.vA).toNat < h.retain.length

/-- The retransmission timer runs while the retain list is not empty and the link is UP (R165). -/
abbrev HostLink.retransTimerKept (h : HostLink) : Prop :=
  h.retransTimer.isSome = true ↔ h.retain ≠ [] ∧ h.state = .up

/-- The silence timer runs while the link is UP and the silence timeout is not 0 (R166). -/
abbrev HostLink.silenceTimerKept (h : HostLink) : Prop :=
  h.silenceTimer.isSome = true ↔ h.state = .up ∧ h.silenceTimeout ≠ 0

/-- A record that stalls stands at the head of the inbound buffer, and it is no RESET_DEVICE without parameters (R30, R174). -/
abbrev HostLink.stallKept (h : HostLink) : Prop :=
  h.headStalled = true →
    h.inbound ≠ [] ∧ ∀ k ∈ h.inbound.head?, k.kind = .command → isPlainReset k.payload = false

/-- The laws of the host link. -/
abbrev HostLink.sound (h : HostLink) : Prop :=
  h.windowKept ∧ h.cursorKept ∧ h.retransTimerKept ∧ h.silenceTimerKept ∧ h.stallKept ∧ h.inbound.length ≤ 8 ∧ h.grantRoom ≤ 8

/-! ## Laws of the store (R1, R2, R5, R6, R15, R21, R30) -/

/-- Every cell is in the free cell pool or in one chain, once (R5, R6). -/
abbrev State.cellsKept (s : State) : Prop :=
  Table.wf s.store.frames ∧ (s.store.freeCells ++ s.heldCells).Perm (List.range Config.cells)

/-- A chain as R2 describes it: every cell but the last is full, the last holds 1 to 32 octets, and the stored length is the
number of octets in it. -/
abbrev FrameRecord.chainKept (r : FrameRecord) : Prop :=
  (∀ c ∈ r.chain.dropLast, c.fill = 32) ∧ (∀ c ∈ r.chain.getLast?, 1 ≤ c.fill ∧ c.fill ≤ 32) ∧
    r.stored = (r.chain.map ChainCell.fill).sum

/-- Every chain is as R2 describes it. -/
abbrev State.chainsKept (s : State) : Prop := ∀ p ∈ s.store.frames, p.2.chainKept

/-- Octets, frame records, Tag Map and reject slots are in canonical form. -/
abbrev State.tablesKept (s : State) : Prop :=
  Memory.wf s.store.octets ∧ Table.wf s.store.frames ∧ Table.wf s.tags ∧ Table.wf s.rejects

/-! ## Custody of the frame records (R16, R18 to R21, R48) -/

/-- The five states of a TX record (Table 1.8). -/
abbrev FrameState.ofTx (x : FrameState) : Prop := x = .filling ∨ x = .ready ∨ x = .sending ∨ x = .discarding ∨ x = .done

/-- The frame records whose indexes stand in this list are those that P holds of, each once. -/
abbrev State.standsIn (s : State) (places : List Nat) (P : FrameRecord → Bool) : Prop :=
  places.Nodup ∧ (∀ i ∈ places, (s.frame i).any P = true) ∧ ∀ p ∈ s.store.frames, P p.2 = true → p.1 ∈ places

/-- The record waits in the transmit queue of this line and priority (R37). -/
def FrameRecord.queuedFor (n : LineNo) (p : Priority) (r : FrameRecord) : Bool :=
  (decide (r.state = .filling) || decide (r.state = .ready)) && decide (r.line = n) && decide (r.priority = p)

/-- The frames of a line stand where their states say: in the queue of their priority, in the transmitter, in the receiver, in
the receive queue (R18, R19, R37, R51, R72, R94). -/
abbrev State.lineCustody (s : State) (n : LineNo) : Prop :=
  s.standsIn (s.line n).tx.urgent (fun r => r.queuedFor n .urgent) ∧
    s.standsIn (s.line n).tx.normal (fun r => r.queuedFor n .normal) ∧
    s.standsIn (s.line n).tx.current.toList (fun r => decide (r.state = .sending) && decide (r.line = n)) ∧
    s.standsIn (s.line n).rx.current.toList (fun r => decide (r.state = .assembling) && decide (r.line = n)) ∧
    s.standsIn (s.line n).rx.queue (fun r =>
      (decide (r.state = .queued) || decide (r.state = .delivering) || decide (r.state = .sent)) && decide (r.line = n))

/-- The Tag Map holds exactly the tags of the TX records in FILLING, READY, SENDING or DISCARDING (R21); no tag twice is its
canonical form. -/
abbrev State.tagCustody (s : State) : Prop :=
  s.standsIn (s.tags.map Prod.snd) (fun r => decide (r.state.ofTx ∧ r.state ≠ .done)) ∧
    ∀ p ∈ s.tags, (s.frame p.2).any (fun r => decide (r.tag = p.1)) = true

/-- The frame record of a completion entry, if it is of a frame. -/
def EntryRef.frameIndex : EntryRef → Option Nat
  | .frame i => some i
  | .reject _ => none

/-- The reject slot of a completion entry, if it is of one. -/
def EntryRef.slot : EntryRef → Option Nat
  | .frame _ => none
  | .reject k => some k

/-- The Completion List refers to the records in DONE and to the reject slots in use, each once (R30, R48). -/
abbrev State.completionCustody (s : State) : Prop :=
  s.completion.Nodup ∧ s.standsIn (s.completion.filterMap EntryRef.frameIndex) (fun r => decide (r.state = .done)) ∧
    (∀ k ∈ s.completion.filterMap EntryRef.slot, (Table.get s.rejects k).isSome = true) ∧
    ∀ p ∈ s.rejects, .reject p.1 ∈ s.completion

/-- Every frame record is in a state of its kind and in the one place of that state; DISCARDING and DONE hold no cells (R18 to
R21). -/
abbrev State.custodyKept (s : State) : Prop :=
  (∀ p ∈ s.store.frames,
    (p.2.kind = .tx ↔ p.2.state.ofTx) ∧ (p.2.state = .discarding ∨ p.2.state = .done → p.2.chain = [])) ∧
    (∀ n, s.lineCustody n) ∧ s.tagCustody ∧ s.completionCustody

/-- The completion entries that a retained record carries. -/
def Retained.entries (k : Retained) : List EntryRef :=
  match k.content with
  | .txDone entries => entries
  | _ => []

/-- The frame whose LAST segment a retained record carries. -/
def Retained.lastOf (k : Retained) : Option Nat :=
  match k.content with
  | .rxSegment i _ _ _ true _ _ => some i
  | _ => none

/-- The retained records refer to what waits for the host's acknowledgement: reported completion entries and SENT frames, each
carried once (R132, R139, R142). -/
abbrev State.retainedKept (s : State) : Prop :=
  (s.link.retain.flatMap Retained.entries).Nodup ∧
    (∀ e ∈ s.link.retain.flatMap Retained.entries, e ∈ s.completion ∧ entryReported s e = true) ∧
    (s.link.retain.filterMap Retained.lastOf).Nodup ∧
    ∀ i ∈ s.link.retain.filterMap Retained.lastOf, (s.frame i).any (fun r => decide (r.state = .sent)) = true

/-! ## Laws of a line (Tables 3.1, 4.1 and 6.1; R38, R94, R98, R100, R122, R123) -/

/-- The transmitter's states in which it holds a current frame (Table 3.1). -/
abbrev TxState.holdsFrame (x : TxState) : Prop := x = .leadin ∨ x = .data ∨ x = .trailer

/-- A line's state, its transmitter and its receiver agree (R51, R52, R72, R73, R122); the receiver is within a
character, or behind one that may begin a break, only where it reads characters (R75, R79). -/
abbrev Line.placed (l : Line) : Prop :=
  (l.tx.state = .off ↔ l.state = .closed) ∧ (l.tx.current.isSome = true ↔ l.tx.state.holdsFrame) ∧
    (l.rx.state = .off ↔ l.state ≠ .opened) ∧ (l.rx.current.isSome = true ↔ l.rx.state = .assembling) ∧
    (l.rx.character = .waiting ∨ l.readsCharacters = true) ∧
    (l.state = .closed → l.tx.urgent = [] ∧ l.tx.normal = [] ∧ l.rx.queue = [])

/-- A line holds no more transmit frames than its limit and no more received frames than its quota (R38, R94). -/
abbrev Line.bounded (l : Line) : Prop := l.frameCount ≤ l.config.limit ∧ l.rx.queue.length ≤ l.config.quota

/-- A report of conditions is pending only from a LATCHED group under REPORT_CONDITIONS; the group of a CLOSED line is FREE and
cleared; a CLOSED report is pending only on a CLOSED line (R98, R100, R105, R111, R123). -/
abbrev Line.reportsKept (l : Line) : Prop :=
  (l.group.reportPending = true → l.group.latched = true ∧ l.config.reportConditions = true) ∧
    (l.state = .closed → l.group = .reset) ∧ (l.close.reportPending = true → l.state = .closed)

/-- A FREE live group has nothing new: its snapshot is the live values (R99). -/
abbrev Line.freeGroupCurrent (l : Line) : Prop :=
  l.state ≠ .closed → l.group.latched = false → l.group.snapshot = l.live

/-! ## A command at the head -/

/-- A COMMAND with this code, tag and parameters is executed when its event comes: the part is not held in reset, the record
stands at the head and has not stalled, and its reply can join the queue (R171, R174). -/
structure State.Executes (s : State) (c : CommandCode) (tag : Byte) (ps : List Byte) : Prop where
  running : s.rstLow = false
  fresh : s.link.headStalled = false
  place : s.occupied < 16
  head : s.link.inbound.head? = some { kind := .command, payload := c.octet :: tag :: ps }

/-- What the event of a command ends with: its reply joins the queue, its execution ends, and the free serializer chooses
(R168, R171, R173). -/
def State.answered (s : State) (c : CommandCode) (tag : Byte) (status : ReplyStatus) (results : List Byte) : State :=
  serve false (endExecution (joinReply { code := c.octet, tag := tag, status := status, results := results } s))

/-- A TX_SEGMENT record with this payload is taken when its event comes (R25). -/
structure State.Offers (s : State) (payload : List Byte) : Prop where
  running : s.rstLow = false
  fresh : s.link.headStalled = false
  head : s.link.inbound.head? = some { kind := .txSegment, payload := payload }

/-- What the event of a segment ends with: its execution ends, and the free serializer chooses (R25, R168). -/
def State.taken (s : State) : State := serve false (endExecution s)

/-- A first segment passes the checks of Table 2.1 above one and fails that one (R27). -/
def FirstFails (g : Segment) (s : State) : RejectStatus → Prop
  | .lineClosed => ∀ n, lineField g.line = some n → (s.line n).state ≠ .opened
  | .tagClash => ∃ n, lineField g.line = some n ∧ (s.line n).state = .opened ∧ (Table.get s.tags g.tag).isSome = true
  | .queueFull =>
    ∃ n, lineField g.line = some n ∧ (s.line n).state = .opened ∧ Table.get s.tags g.tag = none ∧
      (s.line n).config.limit ≤ (s.line n).frameCount
  | .length =>
    ∃ n, lineField g.line = some n ∧ (s.line n).state = .opened ∧ Table.get s.tags g.tag = none ∧
      (s.line n).frameCount < (s.line n).config.limit ∧ (1024 < g.declared ∨ 240 < g.data.length)
  | .noRecord =>
    ∃ n, lineField g.line = some n ∧ (s.line n).state = .opened ∧ Table.get s.tags g.tag = none ∧
      (s.line n).frameCount < (s.line n).config.limit ∧ g.declared ≤ 1024 ∧ g.data.length ≤ 240 ∧
      s.freeRecordCount ≤ s.recordReserve

/-- A first segment passes the five checks of Table 2.1 for line n (R27). -/
structure FirstPasses (g : Segment) (s : State) (n : LineNo) : Prop where
  line : lineField g.line = some n
  opened : (s.line n).state = .opened
  tag : Table.get s.tags g.tag = none
  room : (s.line n).frameCount < (s.line n).config.limit
  declared : g.declared ≤ 1024
  data : g.data.length ≤ 240
  record : s.recordReserve < s.freeRecordCount

/-- The state in which a first segment has made its frame, before its data is stored (R28): a FILLING record with the segment's
fields, its tag in the Tag Map, at the tail of the queue of its priority. -/
def State.created (s : State) (g : Segment) (n : LineNo) (i : Nat) : State :=
  let r : FrameRecord :=
    { kind := .tx, state := .filling, line := n, priority := if g.urgent then .urgent else .normal, tag := g.tag
      declared := if g.declared = 0 then none else some g.declared }
  let mapped : State := { s.putFrame i r with tags := Table.put s.tags g.tag i }
  mapped.modLine n (fun l =>
    { l with
      tx := { l.tx with
        urgent := if g.urgent then l.tx.urgent ++ [i] else l.tx.urgent
        normal := if g.urgent then l.tx.normal else l.tx.normal ++ [i] } })

/-- v is s with these data octets stored in frame i, and the frame closed if this is its LAST segment: the rows of Table 2.2 for
a frame that takes data (R32, R33). -/
def StoredAs (i : Nat) (data : List Byte) (last : Bool) (s v : State) : Prop :=
  ∀ r, s.frame i = some r →
    let closed (u : State) : State := if last then u.modFrame i (fun q => { q with complete := true }) else u
    let fits : Prop := r.stored + data.length ≤ r.declared.getD 1024 ∧ data.length ≤ 240
    (¬ fits → v = failFrame .length i (closed s)) ∧
    (fits → ∀ u, appendOctets .transmitData i data s = (u, false) → v = failFrame .nospace i (closed u)) ∧
    (fits → ∀ u, appendOctets .transmitData i data s = (u, true) → last = false → v = u) ∧
    (fits → ∀ u q, appendOctets .transmitData i data s = (u, true) → last = true → u.frame i = some q →
      ((q.stored ≠ 0 ∧ ∀ d, q.declared = some d → q.stored = d) →
        v = u.modFrame i (fun p => { p with complete := true, state := if p.state = .filling then .ready else p.state })) ∧
      (¬ (q.stored ≠ 0 ∧ ∀ d, q.declared = some d → q.stored = d) → v = failFrame .length i (closed u)))

/-- The record that stalls at the head, offered again (R30, R174). -/
def State.offered (s : State) : State := { s with link := { s.link with headStalled := false } }

/-! ## Acknowledgement (R161, R164, R166) -/

/-- A checked host record has been taken in UP: the silence timer restarts (R166). -/
def State.heard (s : State) : State :=
  { s with
    link := { s.link with
      silenceTimer :=
        if s.link.silenceTimeout = 0 then s.link.silenceTimer else some (100 * s.link.silenceTimeout + 1) } }

/-- The octet a names the sequence number v, and v lies from V(A) to V(S), both included (R161). -/
def HostLink.InRange (h : HostLink) (a : Byte) (v : Seq) : Prop :=
  v.toNat = a.toNat ∧ (v - h.vA).toNat ≤ (h.vS - h.vA).toNat

/-- An acknowledgement in range up to a, with this room field (R161, R142, R143): the records below a leave the retain list;
progress resets the retry count, moves the cursor and restarts or stops the timer; the grant is renewed; the sources release
what they carried, oldest first; the blocks concerned act on the releases. -/
def State.acknowledged (s : State) (a : Seq) (room : Nat) : State :=
  let acked := s.link.retain.take (a - s.link.vA).toNat
  let left := s.link.retain.drop (a - s.link.vA).toNat
  let link : HostLink := { s.link with
    retain := if a = s.link.vA then s.link.retain else left
    vA := a
    retryCount := if a = s.link.vA then s.link.retryCount else 0
    cursor := if a = s.link.vA then s.link.cursor else s.link.cursorAfter a
    retransTimer := if a = s.link.vA then s.link.retransTimer
      else if left = [] then none else some (10 * s.link.retransTimeout + 1)
    grantBase := a, grantRoom := min room 8 }
  afterReleases acked (acked.filterMap (Retained.emptiesLine s)) (acked.foldl releaseRecord { s with link := link })

/-- An acknowledge field out of range is counted in ACK_ERRORS and has no other effect (R161). -/
def State.ackMissed (s : State) : State := { s with link := { s.link with ackErrors := satInc s.link.ackErrors } }

/-- Reception when the search resumes with these octets: behind the first start octet among them, or searching (R152). -/
def ResumesWith (octets : List Byte) (x : Reception) : Prop :=
  (0xC3#8 ∉ octets ∧ x = .searching) ∨
    ∃ before rest, octets = before ++ 0xC3#8 :: rest ∧ 0xC3#8 ∉ before ∧ x = .reading rest

/-- The row that takes a checked record of this type (Table 8.2). -/
def HostType.row (r : HostRecord) : HostType → Instr
  | .hello => .hello r
  | .ack => .hostAck r
  | .nak => .hostNak r
  | .command => .hostSequencedRecord .command r
  | .txSegment => .hostSequencedRecord .txSegment r

/-- The row of spec/opcode_table.json that a command code has. -/
def CommandCode.row : CommandCode → Instr
  | .identify => .identify
  | .setDevice => .setDevice
  | .queryDevice => .queryDevice
  | .resetDevice => .resetDevice
  | .openLine => .openLine
  | .closeLine => .closeLine
  | .queryLine => .queryLine
  | .ackCondition => .ackCondition
  | .sendBreak => .sendBreak
  | .seekLine => .seekLine
  | .cancelFrame => .cancelFrame
  | .redirect => .redirect
  | .setLine => .setLine

/-! ## The transmitter's choice (R53, R54) -/

/-- A queue head is eligible: READY, or FILLING with at least the threshold's cells, the threshold being 1 or more, and in
sync framing with a declared length (R54). -/
def Eligible (l : Line) (r : FrameRecord) : Prop :=
  r.state = .ready ∨
    (r.state = .filling ∧ 1 ≤ l.config.threshold ∧ l.config.threshold ≤ r.cellCount ∧
      (l.isSync = true → r.declared.isSome = true))

/-- Frame i is the eligible head of a queue. -/
def EligibleHead (s : State) (l : Line) (queue : List Nat) (i : Nat) : Prop :=
  ∃ r, queue.head? = some i ∧ s.frame i = some r ∧ Eligible l r

/-- Frame i is the candidate: the URGENT head if it is eligible, otherwise the NORMAL head if it is (R53 step 2). -/
def IsCandidate (s : State) (l : Line) (i : Nat) : Prop :=
  EligibleHead s l l.tx.urgent i ∨ ((∀ j, ¬ EligibleHead s l l.tx.urgent j) ∧ EligibleHead s l l.tx.normal i)

/-- The receiver of a line as a take or a break leaves it: MUTED in half duplex unless it is OFF (R58, R88). -/
def Line.mutedRx (l : Line) : Receiver :=
  if l.halfDuplex = true ∧ l.rx.state ≠ .off then { l.rx with state := .muted, character := .waiting, toCome := 0 } else l.rx

/-! ## What is left alone -/

/-- t differs from s at most in the lines, the store, the Tag Map, the Completion List and the reply queue. -/
structure LineSide (s t : State) : Prop where
  link : t.link = s.link
  pending : t.pending = s.pending
  rstLow : t.rstLow = s.rstLow
  reserveFloor : t.reserveFloor = s.reserveFloor
  recordReserve : t.recordReserve = s.recordReserve
  rejects : t.rejects = s.rejects
  straySegments : t.straySegments = s.straySegments
  pointer : t.pointer = s.pointer
  turnCount : t.turnCount = s.turnCount

/-- u differs from s at most in line n and in frame record i. -/
structure KeepsBut (n : LineNo) (i : Nat) (s u : State) : Prop extends LineSide s u where
  lines : ∀ m, m ≠ n → u.line m = s.line m
  frames : ∀ j, j ≠ i → u.frame j = s.frame j
  freeCells : u.store.freeCells = s.store.freeCells
  octets : u.store.octets = s.store.octets
  tags : u.tags = s.tags
  completion : u.completion = s.completion
  replies : u.replies = s.replies

end Sys2Proof.Machine
end

