-- ==== Sys2Proof/Certificates/Slice0/Obligations.lean ====
section
/-! DEFINITION. The statements for the provers: what each command of the block does, what the blocks' operations do, and the laws
every step keeps. -/

open Sys2Proof Sys2Proof.Machine

/-! ## The queue and the two resets -/

/-- O1.  One step runs the command at the front of the queue on the rest; an empty queue idles (assumption log 1). -/
def Obligations.StepTakesFrontCommand : Prop :=
  (∀ (c : Instr) (rest : List Instr) (s : State), s.pending = c :: rest → step s = exec c { s with pending := rest }) ∧
    ∀ s : State, s.pending = [] → step s = .next s

/-- O2.  Every command answers a next state from every state, leaves the queue alone, and only the two reset rows move RST#
(9.5).  That a command whose event cannot come about changes nothing, and that commands come into the queue from outside alone,
are the model's (assumption log 8, 2). -/
def Obligations.EveryCommandAnswersNext : Prop :=
  ∀ (c : Instr) (s : State), ∃ t, exec c s = .next t ∧ t.pending = s.pending ∧
    (t.rstLow = s.rstLow ∨ c = .rstAsserted ∨ ∃ h1 h0, c = .powerOnReset h1 h0)

/-- O3.  Power-on reset (9.5, Table 9.4): every block in its reset state whatever the state before, the rate as strapped, the
input pins as they are; and the values the spec gives that state.  That the RESYNC has begun already, and the octets of the
cells, are the model's (assumption log 6, 12). -/
def Obligations.PowerOnResetEffect : Prop :=
  (∀ (h1 h0 : Bool) (s : State),
    exec (.powerOnReset h1 h0) s = .next { State.reset with
      lines := s.lines.map (fun l => Line.reset l.carrier l.clear)
      link := { State.reset.link with
        rate := if h1 then (if h0 then .r3000000 else .r921600) else (if h0 then .r460800 else .r115200) }
      pending := s.pending }) ∧
  (∀ carrier clear : Bool,
    let l := Line.reset carrier clear
    l.carrier = carrier ∧ l.clear = clear ∧ l.state = .closed ∧
      l.tx.state = .off ∧ l.tx.urgent = [] ∧ l.tx.normal = [] ∧ l.tx.current = none ∧ l.tx.pendingBreak = none ∧
      l.tx.turnaroundTimer = none ∧ l.rx.state = .off ∧ l.rx.current = none ∧ l.rx.queue = [] ∧ l.rx.nextNumber = 0 ∧
      l.rx.pendingLoss = false ∧ l.group.snapshot = { carrier := false, clear := false, breaking := false, synced := false } ∧
      l.group.latched = false ∧ l.group.reportPending = false ∧ l.close.drainTimer = none ∧ l.close.completed = 0 ∧
      l.close.flushed = 0 ∧ l.close.discarded = 0 ∧ l.close.reportPending = false ∧ l.counters.txFrames = 0 ∧
      l.counters.txAborts = 0 ∧ l.counters.rxFrames = 0 ∧ l.counters.rxErrors = 0 ∧ l.counters.rxLost = 0 ∧
      l.config.weight = 1 ∧ l.config.lifetime = 0 ∧ l.config.threshold = 0 ∧ l.config.deliverErrors = false ∧
      l.config.reportConditions = false ∧ l.config.quota = 8 ∧ l.config.limit = 32) ∧
  let s := State.reset
  s.store.freeCells = List.range 2048 ∧ s.store.frames = [] ∧ s.tags = [] ∧ s.rejects = [] ∧ s.completion = [] ∧
    s.replies = [] ∧ s.reserveFloor = 256 ∧ s.recordReserve = 16 ∧ s.straySegments = 0 ∧ s.pointer = 7 ∧ s.turnCount = 0 ∧
    s.rstLow = false ∧ s.link.state = .down ∧ s.link.vS = 0 ∧ s.link.vA = 0 ∧ s.link.vR = 0 ∧ s.link.retain = [] ∧
    s.link.cursor = none ∧ s.link.retryCount = 0 ∧ s.link.retransTimer = none ∧ s.link.silenceTimer = none ∧
    s.link.inbound = [] ∧ s.link.grantBase = 0 ∧ s.link.grantRoom = 0 ∧ s.link.nakSent = false ∧ s.link.ackOwed = false ∧
    s.link.resetCause = .power ∧ s.link.retransTimeout = 20 ∧ s.link.retryLimit = 4 ∧ s.link.silenceTimeout = 20 ∧
    s.link.segmentSize = 240 ∧ s.link.roomLastSent = 8 ∧ s.link.reception = .searching ∧ s.link.crcErrors = 0 ∧
    s.link.naksSent = 0 ∧ s.link.retransmissions = 0 ∧ s.link.drops = 0 ∧ s.link.ackErrors = 0 ∧
    s.link.sending = some { type := .resync, seq := 0, ack := 0, room := 8, payload := [] }

/-- O4.  RESET_DEVICE without parameters (9.4, Table 8.3): every block in its reset state in one event, whatever the occupied
count of the reply queue; the device counters, V(R), V(S), the grant, the HELLO parameters, the rate, the reception state and a
record being sent are kept; no reply is formed.  That the octets of the cells are kept is the model's (assumption log 6). -/
def Obligations.DeviceResetEffect : Prop :=
  ∀ (s : State) (tag : Byte), s.rstLow = false → s.link.headStalled = false →
    s.link.inbound.head? = some { kind := .command, payload := [0x04#8, tag] } →
    exec .resetDevice s = .next (serve false { State.reset with
      lines := s.lines.map (fun l => Line.reset l.carrier l.clear)
      store := { freeCells := List.range 2048, octets := s.store.octets, frames := [] }
      straySegments := s.straySegments
      pending := s.pending
      link := { s.link with
        state := .down, vA := s.link.vS, retain := [], cursor := none, retryCount := 0, retransTimer := none
        silenceTimer := none, inbound := [], headStalled := false, nakSent := false, nakPending := false, ackOwed := false
        item := .resync, resetCause := .command, roomLastSent := 8 } })

/-- O5.  RST# low (9.5): the record on HTXD is cut off; until power-on reset no command has an effect but the levels of the
input pins; the outputs stand at their reset levels.  That level changes on the input pins are followed meanwhile is the model's
(assumption log 20), from 5.1 and 5.6. -/
def Obligations.RstLowTakesNoEvent : Prop :=
  (∀ s : State, exec .rstAsserted s = .next { s with rstLow := true, link := { s.link with sending := none } }) ∧
  (∀ (c : Instr) (s : State), s.rstLow = true →
    match c with
    | .powerOnReset _ _ => True
    | .rstAsserted => True
    | .clearChange n high => exec c s = .next (s.modLine n (fun l => { l with clear := high }))
    | .carrierChange n high => exec c s = .next (s.modLine n (fun l => { l with carrier := high }))
    | _ => exec c s = .next s) ∧
  ∀ (s : State) (n : LineNo), s.rstLow = true →
    s.htxd = none ∧ s.ltxd n = .marking ∧ s.lreq n = false ∧ s.ldrv n = false ∧ s.lclkDriven n = false

/-- O6.  A tick (1.3, 9.6): the age of every FILLING or READY frame rises by 1 up to 65535, every running timer counts one tick,
each line's judgment of ages becomes due (the model's own mark, assumption log 11), and a stalled first segment is judged again.
That it is judged after the ages have advanced and before every expiry of the tick is the model's order (assumption log 11).
The increment of every age, counter and tally: one more below 65535, nothing at 65535 (0.6). -/
def Obligations.TickEffect : Prop :=
  (∀ k : Nat, (k < 65535 → satInc k = k + 1) ∧ (65535 ≤ k → satInc k = k)) ∧
  ∀ s : State, s.rstLow = false →
    ∃ t, exec .tick s = .next (serve true (rejudgeSegment true t)) ∧
      (s.link.headStalled = false → rejudgeSegment true t = t) ∧
      (∀ i, t.frame i = (s.frame i).map (fun r =>
        if r.state = .filling ∨ r.state = .ready then { r with age := satInc r.age } else r)) ∧
      (∀ n, t.line n = { s.line n with
        tx := { (s.line n).tx with
          breakTimer := (s.line n).tx.breakTimer.map (· - 1), turnaroundTimer := (s.line n).tx.turnaroundTimer.map (· - 1)
          expiryDue := true }
        close := { (s.line n).close with drainTimer := (s.line n).close.drainTimer.map (· - 1) } }) ∧
      t.link = { s.link with
        retransTimer := s.link.retransTimer.map (· - 1), silenceTimer := s.link.silenceTimer.map (· - 1) } ∧
      t.store.freeCells = s.store.freeCells ∧ t.store.octets = s.store.octets ∧ t.tags = s.tags ∧ t.rejects = s.rejects ∧
      t.completion = s.completion ∧ t.replies = s.replies ∧ t.reserveFloor = s.reserveFloor ∧
      t.recordReserve = s.recordReserve ∧ t.straySegments = s.straySegments ∧ t.pointer = s.pointer ∧
      t.turnCount = s.turnCount ∧ t.rstLow = false ∧ t.pending = s.pending

/-! ## Cell Store -/

/-- O7.  Appending (1.1, 1.2): an octet is refused exactly when the last cell is full and the claim is refused; otherwise it
stands behind the frame's octets, and no octet of another frame is disturbed.  With room in the last cell the octet goes to its
next position and the pool stays as it is; otherwise a served claim of either kind takes the cell at the head of the pool, which
becomes the last cell, and the octet goes to its position 0.  Every other position, every other frame record and the rest of the
state stay as they are. -/
def Obligations.AppendAddsOneOctet : Prop :=
  ∀ (k : CellClaim) (i : Nat) (b : Byte) (s : State) (r : FrameRecord), s.cellsKept → s.chainsKept → s.frame i = some r →
    (appendOctet k i b s = none ↔
      (∀ c, r.chain.getLast? = some c → c.fill = 32) ∧
        match k with
        | .transmitData => s.store.freeCells.length ≤ s.reserveFloor ∨ s.store.freeCells = []
        | .receiveData => s.store.freeCells = []) ∧
    ∀ t, appendOctet k i b s = some t →
      t.cellsKept ∧ t.chainsKept ∧ LineSide s t ∧ t.lines = s.lines ∧
      (∃ q, t.frame i = some q ∧ frameOctets t q = frameOctets s r ++ [b] ∧ q.stored = r.stored + 1 ∧
        q = { r with chain := q.chain, stored := q.stored }) ∧
      (∀ j q, j ≠ i → s.frame j = some q → t.frame j = some q ∧ frameOctets t q = frameOctets s q) ∧
      (∀ j, j ≠ i → t.frame j = s.frame j) ∧ t = { s with store := t.store } ∧
      let stands (pool : List Nat) (chain : List ChainCell) (cell position : Nat) : Prop :=
        t.store.freeCells = pool ∧ (∃ q, t.frame i = some q ∧ q.chain = chain) ∧
          readOctet t.store.octets (32 * cell + position) = b ∧
          ∀ a, a ≠ 32 * cell + position → readOctet t.store.octets a = readOctet s.store.octets a
      (∀ c, r.chain.getLast? = some c → c.fill < 32 →
        stands s.store.freeCells (r.chain.dropLast ++ [{ c with fill := c.fill + 1 }]) c.cell c.fill) ∧
      ((∀ c, r.chain.getLast? = some c → c.fill = 32) →
        ∃ head rest, s.store.freeCells = head :: rest ∧ stands rest (r.chain ++ [{ cell := head, fill := 1 }]) head 0)

/-- O8.  Release and trim (1.1 to 1.4): the cells of a released chain join the tail of the pool in chain order; a released record
is free, its chain first released; a trim takes the last two octets away, and the last cell when it held no more than these, and
leaves every other field of the record as it is.  No other part of the state changes. -/
def Obligations.ReleaseAndTrim : Prop :=
  (∀ (i : Nat) (s : State) (r : FrameRecord), s.frame i = some r →
    let t := freeFrame i s
    t.store.freeCells = s.store.freeCells ++ r.chain.map ChainCell.cell ∧ t.store.octets = s.store.octets ∧
      t.frame i = none ∧ (∀ j, j ≠ i → t.frame j = s.frame j) ∧ t = { s with store := t.store } ∧
      (Table.wf s.store.frames → Table.wf t.store.frames ∧
        t.store.frames.length + 1 = s.store.frames.length ∧
        (s.store.frames.length ≤ 384 → t.freeRecordCount = s.freeRecordCount + 1))) ∧
  (∀ (i : Nat) (s : State) (r : FrameRecord), s.frame i = some r →
    let t := releaseChain i s
    t.store.freeCells = s.store.freeCells ++ r.chain.map ChainCell.cell ∧ t.store.octets = s.store.octets ∧
      t.frame i = some { r with chain := [], stored := 0 } ∧ (∀ j, j ≠ i → t.frame j = s.frame j) ∧
      t = { s with store := t.store }) ∧
  ∀ (i : Nat) (s : State) (r : FrameRecord), s.frame i = some r → r.chainKept → 3 ≤ r.stored →
    let t := trimFrame i s
    (∃ q, t.frame i = some q ∧ q.chainKept ∧ q.stored = r.stored - 2 ∧ q = { r with chain := q.chain, stored := q.stored } ∧
      frameOctets t q = (frameOctets s r).take (r.stored - 2)) ∧
    (∀ c, r.chain.getLast? = some c →
      t.store.freeCells = s.store.freeCells ++ (if c.fill ≤ 2 then [c.cell] else [])) ∧
    t.store.octets = s.store.octets ∧ (∀ j, j ≠ i → t.frame j = s.frame j) ∧ t = { s with store := t.store }

/-- O9.  No step loses a cell or puts one in two places (1.2): the free cell pool and the chains hold every cell once. -/
def Obligations.CellsNeverLostOrShared : Prop := ∀ s t : State, s.cellsKept → step s = .next t → t.cellsKept

/-- O10.  Every step keeps every chain as R2 describes it (1.1), and keeps the octets, the Frame Record Table, the Tag Map and
the reject slots in canonical form, no key twice. -/
def Obligations.ChainsAndTablesKept : Prop :=
  (∀ s t : State, s.chainsKept → step s = .next t → t.chainsKept) ∧
    ∀ s t : State, s.tablesKept → step s = .next t → t.tablesKept

/-- O11.  The outputs (3.4, 3.5, 3.11, 8.1): LREQn by the REQUEST mode, LDRVn by the duplex, LCLKn by the clock source; LTXDn by
the transmitter's state, with the line's sync pattern, its lead-in patterns, the length field before the first data octet, and the
bits of each in order, and of an aborted lead-in the pattern in progress alone (3.8); on HTXD the octets of the record being sent,
each as a character of the fixed format, which HRXD reads back; the type codes of the nine records the part sends (8.2).  That a
level which lasts shows as one bit, the idle stream as one pattern and the start of DATA in gap framing as no bits is the model's
convention (assumption log 15). -/
def Obligations.OutputPins : Prop :=
  (∀ t : PartType, t.code =
    match t with
    | .welcome => 0x81#8
    | .ack => 0x82#8
    | .nak => 0x83#8
    | .resync => 0x84#8
    | .reply => 0x90#8
    | .rxSegment => 0xA0#8
    | .txDone => 0xA8#8
    | .condition => 0xB0#8
    | .closed => 0xB8#8) ∧
  (∀ (s : State) (n : LineNo), s.rstLow = false →
    let l := s.line n
    let aborted : Prop := ∃ i r, l.tx.current = some i ∧ s.frame i = some r ∧ r.outcome ≠ none
    let frameOnLine : Prop := l.tx.state = .leadin ∨ l.tx.state = .data ∨ l.tx.state = .trailer
    (l.state = .closed → s.lreq n = false ∧ s.ldrv n = false ∧ s.lclkDriven n = false) ∧
    (l.state ≠ .closed →
      (l.config.requestMode = .line → s.lreq n = true) ∧
      (l.config.requestMode = .frame →
        (s.lreq n = true ↔ frameOnLine ∨ (l.tx.state = .gap ∧ l.tx.gapAfterBreak = false) ∨
          (l.tx.state = .held ∧ l.tx.pendingBreak = none ∧ (∃ i, IsCandidate s l i) ∧ l.config.gateTx = true ∧ l.clear = false ∧
            l.held = false))) ∧
      (s.ldrv n = true ↔ l.config.duplex = .full ∨ frameOnLine ∨ l.tx.state = .gap ∨ l.tx.state = .breaking) ∧
      (s.lclkDriven n = true ↔ ∃ pattern leadIn, l.config.framing = .sync .internal pattern leadIn)) ∧
    (l.tx.state = .off → s.ltxd n = .marking ∧ s.ltxdBits n = [true]) ∧
    (l.tx.state = .breaking → s.ltxd n = .spacing ∧ s.ltxdBits n = [false]) ∧
    (∀ b, l.tx.state = .data → l.tx.octet = some b → s.ltxd n = .dataOctet b) ∧
    (l.tx.state = .trailer →
      s.ltxd n = .crcOctets (octet (l.tx.trailer.toNat / 256)) (octet l.tx.trailer.toNat)) ∧
    (∀ clock pattern leadIn, l.config.framing = .sync clock pattern leadIn →
      let patternBits := (List.range 16).map (fun k => pattern.testBit (15 - k))
      let octetBits (b : Byte) := (List.range 8).map (fun k => b.getLsbD (7 - k))
      (l.tx.state = .idle ∨ l.tx.state = .held → s.ltxd n = .idlePatterns pattern ∧ s.ltxdBits n = patternBits) ∧
      (l.tx.state = .leadin → ¬ aborted → s.ltxd n = .leadinPatterns pattern leadIn ∧
        s.ltxdBits n = (List.replicate leadIn patternBits).flatten) ∧
      (l.tx.state = .leadin → aborted → s.ltxd n = .patternInProgress pattern ∧ s.ltxdBits n = patternBits) ∧
      (∀ i r, l.tx.state = .data → l.tx.octet = none → l.tx.current = some i → s.frame i = some r →
        let v := r.declared.getD r.stored
        s.ltxd n = .lengthField (octet (v / 256)) (octet v) ∧
          s.ltxdBits n = octetBits (octet (v / 256)) ++ octetBits (octet v)) ∧
      (∀ b, l.tx.state = .data → l.tx.octet = some b → s.ltxdBits n = octetBits b) ∧
      (l.tx.state = .trailer → s.ltxdBits n = (List.range 16).map (fun k => l.tx.trailer.getLsbD (15 - k))) ∧
      (l.tx.state = .gap → s.ltxd n = .closingPattern pattern ∧ s.ltxdBits n = patternBits)) ∧
    (∀ parity stop g, l.config.framing = .gap parity stop g →
      let parityBits (b : Byte) : List Bool :=
        match parity with
        | .none => []
        | .even => [decide (onesCount b % 2 = 1)]
        | .odd => [decide (onesCount b % 2 = 0)]
      let character (b : Byte) : List Bool :=
        false :: (List.range 8).map (fun k => b.getLsbD k) ++ parityBits b ++ List.replicate stop true
      (l.tx.state = .idle ∨ l.tx.state = .held → s.ltxd n = .marking ∧ s.ltxdBits n = [true]) ∧
      (l.tx.state = .data → l.tx.octet = none → s.ltxd n = .betweenOctets ∧ s.ltxdBits n = []) ∧
      (∀ b, l.tx.state = .data → l.tx.octet = some b → s.ltxdBits n = character b) ∧
      (l.tx.state = .trailer →
        s.ltxdBits n = character (octet (l.tx.trailer.toNat / 256)) ++ character (octet l.tx.trailer.toNat)) ∧
      (l.tx.state = .gap → s.ltxd n = .gapMarking g ∧
        s.ltxdBits n = List.replicate (g * (9 + (if parity = .none then 0 else 1) + stop)) true)) ∧
    (s.link.sending = none → s.htxd = none ∧ s.htxdBits = [true]) ∧
    ∀ k, s.link.sending = some k →
      let covered := [k.type.code, k.seq.setWidth 8, k.ack.setWidth 8, octet k.room] ++ octets16 k.payload.length ++ k.payload
      let octets := 0xC3#8 :: covered ++ octets16 (recordCrc covered).toNat
      s.htxd = some octets ∧
        s.htxdBits = octets.flatMap (fun b => false :: (List.range 8).map (fun i => b.getLsbD i) ++ [true])) ∧
  ∀ (b : Byte) (stop : Bool),
    (hostCharacter b).length = 10 ∧ hostCharacterBits = 10 ∧
      readHostCharacter ((hostCharacter b).take 9 ++ [stop]) = some (b, !stop) ∧
      readHostCharacter (hostCharacter b) = some (b, false)

/-- O12.  The state after power-on reset meets every law that the other statements say a step keeps. -/
def Obligations.ResetStateMeetsLaws : Prop :=
  State.reset.cellsKept ∧ State.reset.chainsKept ∧ State.reset.tablesKept ∧ State.reset.custodyKept ∧
    State.reset.retainedKept ∧ State.reset.link.sound ∧ State.reset.occupied ≤ 16 ∧
    ∀ n, (State.reset.line n).placed ∧ (State.reset.line n).bounded ∧ (State.reset.line n).reportsKept ∧
      (State.reset.line n).freeGroupCurrent

/-! ## Segment Handler -/

/-- O13.  A first segment (2.2, 2.3): one that fails a check of Table 2.1 takes the lowest-numbered free reject slot and joins the
Completion List with the status of the first check it fails; with no slot free it stalls and nothing else changes; one that passes
makes its frame in the lowest-numbered free record and stores its data.  A new judgment of one that stalls, at a slot's release
or at a tick, is that of the segment offered again: rejected, accepted, or stalled as before. -/
def Obligations.RejectedFirstSegment : Prop :=
  (∀ (s : State) (payload : List Byte) (g : Segment) (status : RejectStatus), s.Offers payload → segmentOf payload = some g →
    g.first = true → FirstFails g s status →
    (∀ k, k < 16 → Table.get s.rejects k = none → (∀ j, j < k → (Table.get s.rejects j).isSome = true) →
      exec .txSegment s = .next (State.taken { s with
        rejects := Table.put s.rejects k { tag := g.tag, line := g.line.toNat, status := status, reported := false }
        completion := s.completion ++ [.reject k] })) ∧
    ((∀ k, k < 16 → (Table.get s.rejects k).isSome = true) →
      exec .txSegment s = .next (serve false (s.modLink (fun h => { h with headStalled := true }))))) ∧
  (∀ (s : State) (payload : List Byte) (g : Segment) (n : LineNo) (i : Nat), s.Offers payload → segmentOf payload = some g →
    g.first = true → FirstPasses g s n → i < 384 → s.frame i = none → (∀ j, j < i → (s.frame j).isSome = true) →
    ∃ v, StoredAs i g.data g.last (s.created g n i) v ∧ exec .txSegment s = .next (State.taken (settleLine false n v))) ∧
  (∀ (atTick : Bool) (s : State) (payload : List Byte) (g : Segment), s.link.headStalled = true →
    s.link.inbound.head? = some { kind := .txSegment, payload := payload } → segmentOf payload = some g → g.first = true →
    (∀ status k, FirstFails g s status → k < 16 → Table.get s.rejects k = none →
      (∀ j, j < k → (Table.get s.rejects j).isSome = true) →
      rejudgeSegment atTick s = endExecution { s with
        rejects := Table.put s.rejects k { tag := g.tag, line := g.line.toNat, status := status, reported := false }
        completion := s.completion ++ [.reject k] }) ∧
    (∀ status, FirstFails g s status → (∀ k, k < 16 → (Table.get s.rejects k).isSome = true) → rejudgeSegment atTick s = s) ∧
    (∀ n i, FirstPasses g s n → i < 384 → s.frame i = none → (∀ j, j < i → (s.frame j).isSome = true) →
      ∃ v, StoredAs i g.data g.last (s.offered.created g n i) v ∧
        rejudgeSegment atTick s = endExecution (settleLine atTick n v)) ∧
    (s.rstLow = false → exec .txSegment s.offered = .next (serve false (rejudgeSegment false s)))) ∧
  ∀ (atTick : Bool) (s : State),
    (s.link.headStalled = false ∨ ∀ p, s.link.inbound.head? ≠ some { kind := .txSegment, payload := p }) →
    rejudgeSegment atTick s = s

/-- O14.  A whole frame in one segment (2.2, 2.3): a FIRST and LAST segment that passes the five checks, with 1 to 240 octets, a
declared length that is absent or matches, and cells enough above the reserve floor, makes a READY frame that holds exactly its
octets, in the head cells of the pool, under its tag, at the tail of its queue. -/
def Obligations.WholeFrameSegmentIsStored : Prop :=
  ∀ (s : State) (payload : List Byte) (g : Segment) (n : LineNo), s.Offers payload → segmentOf payload = some g →
    g.first = true → g.last = true → lineField g.line = some n → (s.line n).state = .opened →
    Table.get s.tags g.tag = none → (s.line n).frameCount < (s.line n).config.limit → s.recordReserve < s.freeRecordCount →
    g.data ≠ [] → g.data.length ≤ 240 → (g.declared = 0 ∨ g.declared = g.data.length) → s.cellsKept → s.chainsKept →
    s.reserveFloor + (g.data.length + 31) / 32 ≤ s.store.freeCells.length →
    ∃ i u r, exec .txSegment s = .next (State.taken (settleLine false n u)) ∧ s.frame i = none ∧
      (∀ j, j < i → (s.frame j).isSome = true) ∧ u.frame i = some r ∧
      r.kind = .tx ∧ r.state = .ready ∧ r.line = n ∧ r.priority = (if g.urgent then .urgent else .normal) ∧ r.tag = g.tag ∧
      r.declared = (if g.declared = 0 then none else some g.declared) ∧ r.complete = true ∧ r.age = 0 ∧ r.outcome = none ∧
      r.sentCount = 0 ∧ r.reported = false ∧ r.stored = g.data.length ∧ frameOctets u r = g.data ∧
      u.store.freeCells = s.store.freeCells.drop ((g.data.length + 31) / 32) ∧ u.tags = Table.put s.tags g.tag i ∧
      u.completion = s.completion ∧ u.replies = s.replies ∧ LineSide s u ∧
      (u.line n) = { s.line n with
        tx := { (s.line n).tx with
          urgent := if g.urgent then (s.line n).tx.urgent ++ [i] else (s.line n).tx.urgent
          normal := if g.urgent then (s.line n).tx.normal else (s.line n).tx.normal ++ [i] } } ∧
      (∀ m, m ≠ n → u.line m = s.line m) ∧
      ∀ j q, j ≠ i → s.frame j = some q → u.frame j = some q ∧ frameOctets u q = frameOctets s q

/-- O15.  A TX_SEGMENT that is no first segment, row by row of Table 2.2, with the two steps of storing and the closing
(2.1, 2.3): a payload too short or a tag not in the map is stray; the others act on the frame of the tag.  That the tally of a
close stops at 65535 (6.7) is the model's reading (assumption log 17). -/
def Obligations.LaterSegmentRows : Prop :=
  (∀ (s : State) (payload : List Byte), s.Offers payload →
    (payload.length < 6 ∨
      ∃ g, segmentOf payload = some g ∧ g.first = false ∧ Table.get s.tags g.tag = none) →
    exec .txSegment s = .next (State.taken { s with straySegments := satInc s.straySegments })) ∧
  ∀ (s : State) (payload : List Byte) (g : Segment) (i : Nat) (r : FrameRecord), s.Offers payload →
    segmentOf payload = some g → g.first = false → Table.get s.tags g.tag = some i → s.frame i = some r →
    let gives (u : State) : Prop := exec .txSegment s = .next (State.taken (settleLine false r.line u))
    let closed (u : State) : State := if g.last then u.modFrame i (fun q => { q with complete := true }) else u
    let takesData : Prop := r.state = .filling ∨ (r.state = .sending ∧ r.outcome = none ∧ r.complete = false)
    let fits : Prop := r.stored + g.data.length ≤ r.declared.getD 1024 ∧ g.data.length ≤ 240
    let isFull : Prop := r.state = .ready ∨ (r.state = .sending ∧ r.complete = true ∧ r.outcome = none)
    (takesData → ¬ fits → gives (failFrame .length i (closed s))) ∧
    (takesData → fits → ∀ u, appendOctets .transmitData i g.data s = (u, false) → gives (failFrame .nospace i (closed u))) ∧
    (takesData → fits → ∀ u, appendOctets .transmitData i g.data s = (u, true) → g.last = false → gives u) ∧
    (takesData → fits → ∀ u q, appendOctets .transmitData i g.data s = (u, true) → g.last = true → u.frame i = some q →
      ((q.stored ≠ 0 ∧ ∀ d, q.declared = some d → q.stored = d) →
        gives (u.modFrame i (fun p =>
          { p with complete := true, state := if p.state = .filling then .ready else p.state }))) ∧
      (¬ (q.stored ≠ 0 ∧ ∀ d, q.declared = some d → q.stored = d) → gives (failFrame .length i (closed u)))) ∧
    (r.state = .sending → r.outcome ≠ none → gives (closed s)) ∧
    (isFull → g.data = [] → gives s) ∧
    (isFull → g.data ≠ [] → gives (failFrame .length i s)) ∧
    (r.state = .discarding → g.last = false → gives s) ∧
    (r.state = .discarding → g.last = true →
      gives ((({ s with tags := Table.del s.tags r.tag, completion := s.completion ++ [.frame i] } : State).modFrame i
          (fun q => { q with complete := true, state := .done })).modLine r.line
        (fun l => if l.state = .closing then
          { l with close := { l.close with completed := satInc l.close.completed } } else l)))

/-- O16.  A failed transmit frame, row by row of Table 2.3 (2.4): the outcome is fixed if it was absent; a queued frame leaves its
queue, its cells join the pool in chain order, and it goes to DONE, or to DISCARDING when it is incomplete, or to DONE as flushed
when it is incomplete and its line's close is in transmit mode FLUSH; a SENDING frame stays.  That the tallies of a close (6.7) stop
at 65535 is the model's reading (assumption log 17). -/
def Obligations.FailedFrameRows : Prop :=
  ∀ (o : FrameOutcome) (i : Nat) (s : State) (r : FrameRecord), s.frame i = some r →
    let queued : Prop := r.state = .filling ∨ r.state = .ready
    let out (l : Line) : Line := { l with tx := { l.tx with
      urgent := if r.priority = .urgent then l.tx.urgent.filter (· ≠ i) else l.tx.urgent
      normal := if r.priority = .normal then l.tx.normal.filter (· ≠ i) else l.tx.normal } }
    let freed : State := { s with store := { s.store with freeCells := s.store.freeCells ++ r.chain.map ChainCell.cell } }
    let emptied (x : FrameState) (q : FrameRecord) : FrameRecord :=
      { q with outcome := some (r.outcome.getD o), chain := [], stored := 0, state := x }
    let done (t : State) : State := { t with tags := Table.del s.tags r.tag, completion := s.completion ++ [.frame i] }
    (queued → r.complete = true →
      failFrame o i s = ((done freed).modFrame i (emptied .done)).modLine r.line (fun l =>
        if l.state = .closing then
          { out l with close := { l.close with completed := satInc l.close.completed } } else out l)) ∧
    (queued → r.complete = false → ¬ ((s.line r.line).state = .closing ∧ (s.line r.line).close.txMode = .flush) →
      failFrame o i s = (freed.modFrame i (emptied .discarding)).modLine r.line out) ∧
    (queued → r.complete = false → (s.line r.line).state = .closing → (s.line r.line).close.txMode = .flush →
      failFrame o i s = ((done freed).modFrame i (emptied .done)).modLine r.line (fun l =>
        { out l with close := { l.close with flushed := satInc l.close.flushed } })) ∧
    (r.state = .sending → failFrame o i s = s.modFrame i (fun q => { q with outcome := some (r.outcome.getD o) })) ∧
    (¬ queued → r.state ≠ .sending → failFrame o i s = s)

/-! ## Line Transmitter -/

/-- O17.  The selection judgment (3.2, 3.3): made in IDLE and HELD alone; a pending break first, else the candidate, each held by
its gate; a take makes the frame the SENDING current frame and mutes the receiver in half duplex.  What follows on a line at the end
of an event that has changed it: this judgment, then that of CLOSED (O39), then that of the live conditions (O35); that they stand
in this order, once each, is the model's inference (assumption log 13). -/
def Obligations.SelectionJudgment : Prop :=
  (∀ (atTick : Bool) (n : LineNo) (s : State),
    settleLine atTick n s = judgeConditions n (judgeClosed n (selectNext atTick n s))) ∧
  ∀ (atTick : Bool) (n : LineNo) (s : State),
    let l := s.line n
    let enters (x : TxState) : Prop := selectNext atTick n s = s.modLine n (fun k => { k with tx := { k.tx with state := x } })
    (l.tx.state ≠ .idle → l.tx.state ≠ .held → selectNext atTick n s = s) ∧
    (l.tx.state = .idle ∨ l.tx.state = .held →
      (∀ b, l.tx.pendingBreak = some b → l.held = true → enters .held) ∧
      (∀ b, l.tx.pendingBreak = some b → l.held = false →
        selectNext atTick n s = s.modLine n (fun k => { k with
          tx := { k.tx with state := .breaking, breakTimer := some (if atTick then b.duration else b.duration + 1) }
          rx := k.mutedRx })) ∧
      (l.tx.pendingBreak = none → (∀ i, ¬ IsCandidate s l i) → enters .idle) ∧
      (∀ i, l.tx.pendingBreak = none → IsCandidate s l i →
        ((l.config.gateTx = true ∧ l.clear = false) ∨ l.held = true → enters .held) ∧
        (¬ (l.config.gateTx = true ∧ l.clear = false) → l.held = false →
          selectNext atTick n s =
            (s.modFrame i (fun r => { r with state := .sending, sentCount := 0 })).modLine n (fun k => { k with
              tx := { k.tx with
                urgent := k.tx.urgent.filter (· ≠ i), normal := k.tx.normal.filter (· ≠ i), current := some i, readPos := 0
                crc := 0xFFFF#16, octet := none, gapAfterBreak := false, state := if k.isSync then .leadin else .data }
              rx := k.mutedRx }))))

/-- O18.  A data octet boundary, row by row of Table 3.3 (3.7): the octet put on the line is counted; then the next stored octet,
the normal trailer, an underrun, or the inverted trailer of an abort. -/
def Obligations.OctetBoundaryRows : Prop :=
  ∀ (n : LineNo) (i : Nat) (s : State) (r : FrameRecord), s.rstLow = false → (s.line n).tx.state = .data →
    (s.line n).tx.current = some i → s.frame i = some r →
    let l := s.line n
    let sent := if l.tx.octet.isSome then r.sentCount + 1 else r.sentCount
    ∃ u, exec (.dataOctetBoundary n) s = .next (serve false (settleLine false n u)) ∧ KeepsBut n i s u ∧
      (∀ o, r.outcome = some o →
        u.frame i = some { r with sentCount := sent } ∧
        u.line n = { l with tx := { l.tx with state := .trailer, octet := none, trailer := ~~~ l.tx.crc } }) ∧
      (r.outcome = none → l.tx.readPos < r.stored →
        u.frame i = some { r with sentCount := sent } ∧
        let b := (frameOctets s r).getD l.tx.readPos 0
        u.line n = { l with tx := { l.tx with
          octet := some b, readPos := l.tx.readPos + 1, crc := lineCrcOctet l.tx.crc b } }) ∧
      (r.outcome = none → r.stored ≤ l.tx.readPos → r.complete = true →
        u.frame i = some { r with sentCount := sent } ∧
        u.line n = { l with tx := { l.tx with state := .trailer, octet := none, trailer := l.tx.crc } }) ∧
      (r.outcome = none → r.stored ≤ l.tx.readPos → r.complete = false →
        u.frame i = some { r with sentCount := sent, outcome := some .underrun } ∧
        u.line n = { l with tx := { l.tx with state := .trailer, octet := none, trailer := ~~~ l.tx.crc } })

/-- O19.  The end of a frame, row by row of Table 3.5 (3.9): the transmitter holds it no longer and enters GAP, its cells join the
pool in chain order, its sent count stays, it goes to DONE or DISCARDING, and TX_FRAMES or TX_ABORTS counts it.  That the tallies
of a close (6.7) stop at 65535 is the model's reading (assumption log 17). -/
def Obligations.FrameEndRows : Prop :=
  ∀ (n : LineNo) (i : Nat) (s : State) (r : FrameRecord), s.rstLow = false → (s.line n).tx.state = .trailer →
    (s.line n).tx.current = some i → s.frame i = some r → r.line = n → (r.outcome = none → r.complete = true) →
    let l := s.line n
    let flush : Prop := l.state = .closing ∧ l.close.txMode = .flush
    let c := l.close
    ∃ u, exec (.frameEnd n) s = .next (serve false (settleLine false n u)) ∧ LineSide s u ∧
      u.store.freeCells = s.store.freeCells ++ r.chain.map ChainCell.cell ∧ u.store.octets = s.store.octets ∧
      u.replies = s.replies ∧ (∀ j, j ≠ i → u.frame j = s.frame j) ∧ (∀ m, m ≠ n → u.line m = s.line m) ∧
      u.line n = { l with
        tx := { l.tx with current := none, octet := none, gapAfterBreak := false, state := .gap }
        counters := (u.line n).counters, close := (u.line n).close } ∧
      (r.outcome = none → (u.line n).counters = { l.counters with txFrames := satInc l.counters.txFrames }) ∧
      (r.outcome ≠ none → (u.line n).counters = { l.counters with txAborts := satInc l.counters.txAborts }) ∧
      ((r.complete = true ∨ r.outcome = some .flushed ∨ flush) →
        u.frame i = some { r with chain := [], stored := 0, state := .done, outcome := some (r.outcome.getD .ok) } ∧
        u.tags = Table.del s.tags r.tag ∧ u.completion = s.completion ++ [.frame i] ∧
        (flush → (u.line n).close = { c with flushed := satInc c.flushed }) ∧
        (l.state = .closing → c.txMode = .drain → (u.line n).close = { c with completed := satInc c.completed }) ∧
        (l.state ≠ .closing → (u.line n).close = c)) ∧
      (r.complete = false → r.outcome ≠ some .flushed → ¬ flush →
        u.frame i = some { r with chain := [], stored := 0, state := .discarding } ∧ u.tags = s.tags ∧
        u.completion = s.completion ∧ (u.line n).close = c)

/-- O20.  The end of the lead-in (3.5, 3.8): DATA begins with the length field taken into the CRC register; a frame whose outcome
is fixed ends with the pattern, exactly as at the end of a trailer. -/
def Obligations.LeadinEndRows : Prop :=
  ∀ (n : LineNo) (i : Nat) (s : State) (r : FrameRecord), s.rstLow = false → (s.line n).tx.state = .leadin →
    (s.line n).tx.current = some i → s.frame i = some r →
    (r.outcome = none →
      exec (.leadinEnd n) s = .next (serve false (settleLine false n (s.modLine n (fun l => { l with tx := { l.tx with
        state := .data, octet := none
        crc := lineCrcOctet (lineCrcOctet l.tx.crc (octet (r.declared.getD r.stored / 256)))
          (octet (r.declared.getD r.stored)) } }))))) ∧
    (r.outcome ≠ none →
      exec (.leadinEnd n) s = .next (serve false (settleLine false n (endFrame n i s))) ∧
      exec (.frameEnd n) (s.modLine n (fun l => { l with tx := { l.tx with state := .trailer } })) =
        exec (.leadinEnd n) s)

/-- O21.  The end of a GAP (3.4, 4.5): in half duplex a MUTED receiver takes its state by the entry judgment; the transmitter
makes its selection judgment. -/
def Obligations.GapEndEffect : Prop :=
  ∀ (n : LineNo) (s : State), s.rstLow = false → (s.line n).tx.state = .gap →
    exec (.gapEnd n) s = .next (serve false (settleLine false n (s.modLine n (fun l =>
      let x : RxState := if l.config.gateRx = true ∧ l.carrier = false then .gated else if l.isSync then .seek else .discard
      { l with
        tx := { l.tx with state := .idle, gapAfterBreak := false }
        rx := if l.halfDuplex = true ∧ l.rx.state = .muted then
            { l.rx with
              state := x, patternRequired := if x = .seek then false else l.rx.patternRequired
              character := if x = .gated then .waiting else l.rx.character }
          else l.rx }))))

/-- O22.  The break timer's expiry ends the break with its deferred reply OK, which echoes code 14h and the tag of its SEND_BREAK
and takes the place the break reserved (3.10, 9.2); the turnaround timer's expiry ends the hold (3.3).  That an expiry is an event
of its own row, taken when the timer stands at 0, is the model's (assumption log 11). -/
def Obligations.LineTimerExpiries : Prop :=
  (∀ (n : LineNo) (b : PendingBreak) (s : State), s.rstLow = false → (s.line n).tx.state = .breaking →
    (s.line n).tx.breakTimer = some 0 → (s.line n).tx.pendingBreak = some b →
    ∃ u, exec (.breakTimerExpiry n) s = .next (serve true (settleLine true n u)) ∧ u.occupied = s.occupied ∧
      u = joinReply { code := 0x14#8, tag := b.tag, status := .ok, results := [] }
        (s.modLine n (fun l => { l with tx := { l.tx with
          pendingBreak := none, breakTimer := none, state := .gap, gapAfterBreak := true } }))) ∧
  ∀ (n : LineNo) (s : State), s.rstLow = false → (s.line n).tx.turnaroundTimer = some 0 →
    exec (.turnaroundTimerExpiry n) s = .next (serve true (settleLine true n
      (s.modLine n (fun l => { l with tx := { l.tx with turnaroundTimer := none } }))))

/-- O23.  The expiries of a line at a tick (2.6): with a lifetime, every queued frame whose age has reached it fails with EXPIRED,
URGENT queue head to tail, then NORMAL queue head to tail; with lifetime 0 none does.  That they are an event of their own, taken
once after each tick by the mark expiryDue that the tick sets, is the model's (assumption log 11). -/
def Obligations.ExpiryTakesAgedFrames : Prop :=
  ∀ (n : LineNo) (s : State), s.rstLow = false → (s.line n).tx.expiryDue = true →
    let l := s.line n
    let judged := s.modLine n (fun k => { k with tx := { k.tx with expiryDue := false } })
    let aged := (l.tx.urgent ++ l.tx.normal).filter (fun i => (s.frame i).any (fun r => l.config.lifetime ≤ r.age))
    (l.config.lifetime = 0 → exec (.expiry n) s = .next (serve true (settleLine true n judged))) ∧
    (l.config.lifetime ≠ 0 →
      exec (.expiry n) s = .next (serve true (settleLine true n
        (aged.foldl (fun t i => failFrame .expired i t) judged))))

/-- O24.  The drain timer's expiry (6.4): the queued frames go to DONE with FLUSHED in queue order, then the DISCARDING frames of
the line in tag order, then the SENDING frame is asked to abort; the transmit mode is FLUSH and the timer is stopped.  That the
expiry is an event of its own row, taken when the timer stands at 0, and that the tally (6.7) stops at 65535 are the model's
(assumption log 11, 17). -/
def Obligations.DrainTimerExpiryFlushes : Prop :=
  (∀ (n : LineNo) (s : State), s.rstLow = false → (s.line n).state = .closing → (s.line n).close.drainTimer = some 0 →
    let l := s.line n
    let one := (l.tx.urgent ++ l.tx.normal).foldl (fun t i => flushQueued i t) s
    let two := (discardingOf n one).foldl (fun t i => enterDone .flushed i t) one
    let three := l.tx.current.elim two (fun i => failFrame .flushed i two)
    exec (.drainTimerExpiry n) s = .next (serve true (settleLine true n
      (three.modLine n (fun k => { k with close := { k.close with txMode := .flush, drainTimer := none } }))))) ∧
  (∀ (i : Nat) (s : State) (r : FrameRecord), s.frame i = some r →
    let t := flushQueued i s
    t.frame i = some { r with outcome := some (r.outcome.getD .flushed), chain := [], stored := 0, state := .done } ∧
      (∀ j, j ≠ i → t.frame j = s.frame j) ∧ t.tags = Table.del s.tags r.tag ∧ t.completion = s.completion ++ [.frame i] ∧
      t.store.freeCells = s.store.freeCells ++ r.chain.map ChainCell.cell ∧
      (t.line r.line).tx.urgent = (if r.priority = .urgent then (s.line r.line).tx.urgent.filter (· ≠ i)
        else (s.line r.line).tx.urgent) ∧
      (t.line r.line).tx.normal = (if r.priority = .normal then (s.line r.line).tx.normal.filter (· ≠ i)
        else (s.line r.line).tx.normal) ∧
      ((s.line r.line).state = .closing →
        (t.line r.line).close = { (s.line r.line).close with flushed := satInc (s.line r.line).close.flushed })) ∧
  ∀ (n : LineNo) (s : State), Table.wf s.tags →
    (∀ i, i ∈ discardingOf n s ↔
      ∃ tag r, Table.get s.tags tag = some i ∧ s.frame i = some r ∧ r.state = .discarding ∧ r.line = n) ∧
    ∃ kept : List (Nat × Nat), kept.Sublist s.tags ∧ discardingOf n s = kept.map Prod.snd

/-! ## Line Receiver -/

/-- O25.  A character start in IDLE (4.2): with a record the frame begins in the lowest-numbered free record; with none free it is
lost with NOREC and the receiver enters DISCARD.  In every state in which characters are read a character is then in progress, and
in ASSEMBLING and DISCARD there is no other effect.  While one is in progress no other starts (assumption log 8). -/
def Obligations.CharacterStartEffect : Prop :=
  (∀ (n : LineNo) (s : State), s.rstLow = false → (s.line n).isSync = false →
    ((s.line n).rx.state = .assembling ∨ (s.line n).rx.state = .discard) → (s.line n).rx.character ≠ .inProgress →
    exec (.characterStart n) s = .next (serve false (settleLine false n
      (s.modLine n (fun l => { l with rx := { l.rx with character := .inProgress } }))))) ∧
  (∀ (n : LineNo) (s : State), (s.line n).rx.character = .inProgress → exec (.characterStart n) s = .next s) ∧
  ∀ (n : LineNo) (s : State), s.rstLow = false → (s.line n).isSync = false → (s.line n).rx.state = .idle →
    (s.line n).rx.character ≠ .inProgress →
    (∀ i, i < 384 → s.frame i = none → (∀ j, j < i → (s.frame j).isSome = true) → s.store.frames.length < 384 →
      exec (.characterStart n) s = .next (serve false (settleLine false n
        ((s.putFrame i { kind := .rx, state := .assembling, line := n }).modLine n (fun l => { l with
          rx := { l.rx with
            state := .assembling, current := some i, count := 0, framingError := false, parityError := false, length := 0
            toCome := 0, crc := 0xFFFF#16, character := .inProgress }
          tx := { l.tx with turnaroundTimer := if l.halfDuplex then none else l.tx.turnaroundTimer } }))))) ∧
    (384 ≤ s.store.frames.length →
      exec (.characterStart n) s = .next (serve false (settleLine false n (s.modLine n (fun l => { l with
        rx := { l.rx with state := .discard, toCome := 0, character := .inProgress, pendingLoss := true }
        counters := { l.counters with rxLost := satInc l.counters.rxLost } })))))

/-- O26.  A character completed in ASSEMBLING (4.2): the 1027th ends the frame as LONG; a refused cell loses it with NOSPACE;
otherwise the octet is stored, its marks are added, and the CRC register takes it.  The octet and its marks are read from the
samples: 8 data bits least significant first, the parity bit behind them if the line has parity, the first stop bit.  The turnaround
timer starts with the end of reception in half duplex.  In IDLE and DISCARD nothing is stored.  In all three states the
receiver then waits for a start bit and holds whether every one of the samples is spacing, so that a break may follow.  Only a
character in progress completes (assumption log 8), and entry into OFF, GATED, MUTED or BREAK abandons it. -/
def Obligations.CharacterCompleteRows : Prop :=
  (∀ (x : RxState) (l : Line),
    let k := l.leaveAssembling x
    k.rx = { l.rx with
      state := x, current := none, patternRequired := if x = .seek then false else l.rx.patternRequired
      character := if x = .off ∨ x = .gated ∨ x = .muted ∨ x = .breaking then .waiting else l.rx.character } ∧
      k.state = l.state ∧ k.close = l.close ∧ k.carrier = l.carrier ∧ k.clear = l.clear ∧ k.config = l.config ∧ k.group = l.group ∧ k.counters = l.counters ∧
      k.tx = { l.tx with turnaroundTimer := k.tx.turnaroundTimer } ∧
      (l.config.duplex = .full → k.tx.turnaroundTimer = l.tx.turnaroundTimer) ∧
      (l.config.duplex = .half 0 → k.tx.turnaroundTimer = none) ∧
      ∀ d, d ≠ 0 → l.config.duplex = .half d → k.tx.turnaroundTimer = some (d + 1)) ∧
  (∀ (data : OctetBits) (b : Byte) (parityBit stopBit : Bool), (∀ k : Fin 8, b.getLsbD k.val = data[k]) →
    readCharacter .none (false :: data.toList ++ [stopBit]) =
      some { octet := b, framingError := !stopBit, parityError := false } ∧
    readCharacter .even (false :: data.toList ++ [parityBit, stopBit]) =
      some { octet := b, framingError := !stopBit, parityError := parityBit != decide (onesCount b % 2 = 1) } ∧
    readCharacter .odd (false :: data.toList ++ [parityBit, stopBit]) =
      some { octet := b, framingError := !stopBit, parityError := parityBit != decide (onesCount b % 2 = 0) }) ∧
  (∀ (p : Parity) (samples : List Bool), readCharacter p (true :: samples) = none) ∧
  (∀ (p : Parity) (b : Byte),
    readCharacter p (characterOnLine p 1 b) = some { octet := b, framingError := false, parityError := false }) ∧
  let spacing (f : Framing) (b : Byte) (parityBit stopBit : Bool) : Bool :=
    decide (b = 0#8) && !stopBit &&
      (match f with
      | .gap .even _ _ => !parityBit
      | .gap .odd _ _ => !parityBit
      | _ => true)
  (∀ (n : LineNo) (data : OctetBits) (b : Byte) (parityBit stopBit : Bool) (s : State), s.rstLow = false →
    (s.line n).isSync = false → ((s.line n).rx.state = .idle ∨ (s.line n).rx.state = .discard) →
    (s.line n).rx.character = .inProgress → (∀ k : Fin 8, b.getLsbD k.val = data[k]) →
    exec (.characterComplete n data parityBit stopBit) s = .next (serve false (settleLine false n
      (s.modLine n (fun l => { l with rx := { l.rx with
        character := if spacing l.config.framing b parityBit stopBit then .heldSpacing else .waiting } }))))) ∧
  (∀ (n : LineNo) (data : OctetBits) (parityBit stopBit : Bool) (s : State), (s.line n).rx.character ≠ .inProgress →
    exec (.characterComplete n data parityBit stopBit) s = .next s) ∧
  ∀ (n : LineNo) (data : OctetBits) (b : Byte) (parityBit stopBit : Bool) (i : Nat) (s : State), s.rstLow = false →
    (s.line n).isSync = false → (s.line n).rx.state = .assembling → (s.line n).rx.current = some i →
    (∀ k : Fin 8, b.getLsbD k.val = data[k]) →
    (s.line n).rx.character = .inProgress →
    let counted := s.modLine n (fun l => { l with rx := { l.rx with count := l.rx.count + 1 } })
    let null : Bool := spacing (s.line n).config.framing b parityBit stopBit
    let gives (u : State) : Prop :=
      exec (.characterComplete n data parityBit stopBit) s = .next (serve false (settleLine false n
        (u.modLine n (fun l => { l with rx := { l.rx with character := if null then .heldSpacing else .waiting } }))))
    ((s.line n).rx.count = 1026 →
      gives ((freeFrame i counted).modLine n (fun l => { l.leaveAssembling .discard with
        counters := { l.counters with rxErrors := satInc l.counters.rxErrors } }))) ∧
    ((s.line n).rx.count ≠ 1026 → appendOctet .receiveData i b counted = none →
      gives ((freeFrame i counted).modLine n (fun l => { l.leaveAssembling .discard with
        rx := { (l.leaveAssembling .discard).rx with pendingLoss := true }
        counters := { l.counters with rxLost := satInc l.counters.rxLost } }))) ∧
    ((s.line n).rx.count ≠ 1026 → ∀ t, appendOctet .receiveData i b counted = some t →
      gives (t.modLine n (fun l => { l with rx := { l.rx with
        framingError := l.rx.framingError || !stopBit
        parityError := l.rx.parityError ||
          (match l.config.framing with
          | .gap .even _ _ => parityBit != decide (onesCount b % 2 = 1)
          | .gap .odd _ _ => parityBit != decide (onesCount b % 2 = 0)
          | _ => false)
        crc := lineCrcOctet l.rx.crc b } })))

/-- O27.  A gap (4.2, 4.4): it ends DISCARD; it ends a frame in assembly, which is discarded as SHORT, or, judged FRAMING, PARITY,
CRC or OK in that order, is discarded and counted, or trimmed and placed.  While a character is in progress no gap passes
(assumption log 8). -/
def Obligations.ReceiveGapRows : Prop :=
  (∀ (n : LineNo) (s : State), s.rstLow = false → (s.line n).isSync = false → (s.line n).rx.state = .discard →
    (s.line n).rx.character ≠ .inProgress →
    exec (.receiveGap n) s = .next (serve false (settleLine false n
      (s.modLine n (fun l => { l with rx := { l.rx with state := .idle } }))))) ∧
  (∀ (n : LineNo) (s : State), (s.line n).rx.character = .inProgress → exec (.receiveGap n) s = .next s) ∧
  ∀ (n : LineNo) (i : Nat) (s : State) (r : FrameRecord), s.rstLow = false → (s.line n).isSync = false →
    (s.line n).rx.state = .assembling → (s.line n).rx.current = some i → s.frame i = some r →
    (s.line n).rx.character ≠ .inProgress →
    let rx := (s.line n).rx
    let octets := frameOctets s r
    let left := s.modLine n (Line.leaveAssembling .idle)
    let passes : Prop :=
      highFirst (lineCrc (octets.take (octets.length - 2))).toNat = octets.drop (octets.length - 2)
    let gives (u : State) : Prop := exec (.receiveGap n) s = .next (serve false (settleLine false n u))
    let discarded := (freeFrame i left).modLine n (fun l =>
      { l with counters := { l.counters with rxErrors := satInc l.counters.rxErrors } })
    let queued (o : FrameOutcome) : State :=
      placeFrame n i (trimFrame i (left.modFrame i (fun q => { q with outcome := some (q.outcome.getD o) })))
    let faulty (o : FrameOutcome) : Prop :=
      ((s.line n).config.deliverErrors = false → gives discarded) ∧
        ((s.line n).config.deliverErrors = true → gives (queued o))
    (rx.count < 3 → gives discarded) ∧
    (3 ≤ rx.count → rx.framingError = true → faulty .framing) ∧
    (3 ≤ rx.count → rx.framingError = false → rx.parityError = true → faulty .parity) ∧
    (3 ≤ rx.count → rx.framingError = false → rx.parityError = false → ¬ passes → faulty .crc) ∧
    (3 ≤ rx.count → rx.framingError = false → rx.parityError = false → passes → gives (queued .ok))

/-- O28.  The two CRCs (3.6, 8.2): each is the register that takes the bits one after another with its generator polynomial, from
FFFFh, the line CRC most significant bit first, the record CRC least significant bit first (the orientation of its register is
the model's reading, assumption log 9).  A frame sent with its line CRC passes the receiver's check, and one ended by the inverted
CRC fails it, in gap framing and in sync framing (3.6, 4.4). -/
def Obligations.LineCrcSentIsChecked : Prop :=
  (∀ octets : List Byte,
    gapCrcPasses (octets ++ highFirst (lineCrc octets).toNat) = true ∧
      gapCrcPasses (octets ++ highFirst (~~~ lineCrc octets).toNat) = false) ∧
  (∀ octets : List Byte,
    lineCrc octets = (octets.flatMap (fun b => (List.range 8).map (fun i => b.getLsbD (7 - i)))).foldl
      (fun (r : Crc) bit => (r <<< 1) ^^^ (if r.msb != bit then 0x8005#16 else 0#16)) 0xFFFF#16) ∧
  (∀ octets : List Byte,
    recordCrc octets = (octets.flatMap (fun b => (List.range 8).map (fun i => b.getLsbD i))).foldl
      (fun (r : Crc) bit => (r >>> 1) ^^^ (if r.getLsbD 0 != bit then 0x8408#16 else 0#16)) 0xFFFF#16) ∧
  ∀ (length : Nat) (data : List Byte) (high low : Byte),
    let sent := data.foldl lineCrcOctet (lineCrcOctet (lineCrcOctet 0xFFFF#16 (octet (length / 256))) (octet length))
    sent = lineCrc (highFirst length ++ data) ∧
      (highFirst sent.toNat = [high, low] ↔ sent.toNat = 256 * high.toNat + low.toNat) ∧
      highFirst sent.toNat ≠ highFirst (~~~ sent).toNat

/-- O29.  A break (4.2): behind a null character with a framing error it discards a frame in assembly, counted when the frame
holds more than the break's own character, and takes the receiver to BREAK; behind any other character, or after the line returned
to marking, none is detected.  The return to marking takes the receiver from BREAK to DISCARD; behind a null character it ends the
spacing (that the same row reports it there: assumption log 15). -/
def Obligations.BreakRows : Prop :=
  (∀ (n : LineNo) (i : Nat) (s : State), s.rstLow = false → (s.line n).isSync = false → (s.line n).rx.state = .assembling →
    (s.line n).rx.current = some i → (s.line n).rx.character = .heldSpacing →
    exec (.breakDetected n) s = .next (serve false (settleLine false n
      ((freeFrame i s).modLine n (fun l => { l.leaveAssembling .breaking with
        counters := if 1 < l.rx.count then { l.counters with rxErrors := satInc l.counters.rxErrors } else l.counters }))))) ∧
  (∀ (n : LineNo) (s : State), s.rstLow = false → (s.line n).isSync = false →
    ((s.line n).rx.state = .idle ∨ (s.line n).rx.state = .discard) → (s.line n).rx.character = .heldSpacing →
    exec (.breakDetected n) s = .next (serve false (settleLine false n
      (s.modLine n (fun l => { l with rx := { l.rx with state := .breaking, character := .waiting } }))))) ∧
  (∀ (n : LineNo) (s : State), (s.line n).rx.character ≠ .heldSpacing → exec (.breakDetected n) s = .next s) ∧
  (∀ (n : LineNo) (s : State), s.rstLow = false → (s.line n).isSync = false → (s.line n).rx.state = .breaking →
    exec (.lineReturnsToMarking n) s = .next (serve false (settleLine false n
      (s.modLine n (fun l => { l with rx := { l.rx with state := .discard, character := .waiting } }))))) ∧
  ∀ (n : LineNo) (s : State), s.rstLow = false → (s.line n).isSync = false →
    ((s.line n).rx.state = .idle ∨ (s.line n).rx.state = .assembling ∨ (s.line n).rx.state = .discard) →
    (s.line n).rx.character = .heldSpacing →
    exec (.lineReturnsToMarking n) s = .next (serve false (settleLine false n
      (s.modLine n (fun l => { l with rx := { l.rx with character := .waiting } }))))

/-- O30.  A pattern match in SEEK: the last 16 bits are the line's sync pattern, most significant bit first, and no 16 bits before
them are; any other bits bring no match (that they change nothing: assumption log 8).  A pair in SYNCED, each octet read most
significant bit first, row by row of Table 4.4 (4.3). -/
def Obligations.PatternAndPairRows : Prop :=
  (∀ (seen : LineBits) (clock : ClockSource) (pattern leadIn : Nat) (s : State), s.rstLow = false →
    (s.line seen.line).config.framing = .sync clock pattern leadIn → (s.line seen.line).rx.state = .seek →
    let patternBits := (List.range 16).map (fun k => pattern.testBit (15 - k))
    let found : Prop := seen.bits.drop (seen.bits.length - 16) = patternBits ∧
      ∀ k, k + 16 < seen.bits.length → (seen.bits.drop k).take 16 ≠ patternBits
    (found → exec (.patternMatch seen) s = .next (serve false (settleLine false seen.line
      (s.modLine seen.line (fun l => { l with rx := { l.rx with state := .synced, patternRequired := false } }))))) ∧
    (¬ found → exec (.patternMatch seen) s = .next s)) ∧
  ∀ (n : LineNo) (highBits lowBits : OctetBits) (high low : Byte) (clock : ClockSource) (pattern leadIn : Nat) (s : State),
    s.rstLow = false → (s.line n).config.framing = .sync clock pattern leadIn → (s.line n).rx.state = .synced →
    (∀ k : Fin 8, high.getLsbD (7 - k.val) = highBits[k]) → (∀ k : Fin 8, low.getLsbD (7 - k.val) = lowBits[k]) →
    let v := 256 * high.toNat + low.toNat
    let required := (s.line n).rx.patternRequired
    let seek (l : Line) : Line := { l with rx := { l.rx with state := .seek, patternRequired := false } }
    let gives (u : State) : Prop := exec (.pair n highBits lowBits) s = .next (serve false (settleLine false n u))
    (v = pattern → gives (s.modLine n (fun l => { l with rx := { l.rx with patternRequired := false } }))) ∧
    (v ≠ pattern → required = true → gives (s.modLine n seek)) ∧
    (v ≠ pattern → required = false → (v = 0 ∨ 1024 < v) →
      gives (s.modLine n (fun l =>
        { seek l with counters := { l.counters with rxErrors := satInc l.counters.rxErrors } }))) ∧
    (v ≠ pattern → required = false → 1 ≤ v → v ≤ 1024 →
      (∀ i, i < 384 → s.frame i = none → (∀ j, j < i → (s.frame j).isSome = true) → s.store.frames.length < 384 →
        gives ((s.putFrame i { kind := .rx, state := .assembling, line := n }).modLine n (fun l => { l with
          rx := { l.rx with
            state := .assembling, current := some i, count := 0, framingError := false, parityError := false, length := v
            toCome := v + 2, crc := lineCrcOctet (lineCrcOctet 0xFFFF#16 high) low }
          tx := { l.tx with turnaroundTimer := if l.halfDuplex then none else l.tx.turnaroundTimer } }))) ∧
      (384 ≤ s.store.frames.length →
        gives (s.modLine n (fun l => { l with
          rx := { l.rx with state := .discard, toCome := v + 2, pendingLoss := true }
          counters := { l.counters with rxLost := satInc l.counters.rxLost } }))))

/-- O31.  An octet in sync framing (4.3), read most significant bit first: in DISCARD it is consumed; in ASSEMBLING data is stored
and taken into the CRC register, or the frame is lost with NOSPACE; the first CRC octet is kept; the second ends the frame, judged
by CRC alone. -/
def Obligations.SyncOctetRows : Prop :=
  (∀ (n : LineNo) (bits : OctetBits) (s : State), s.rstLow = false → (s.line n).isSync = true →
    (s.line n).rx.state = .discard →
    exec (.syncOctet n bits) s = .next (serve false (settleLine false n (s.modLine n (fun l =>
      if l.rx.toCome ≤ 1 then { l with rx := { l.rx with state := .synced, patternRequired := true, toCome := 0 } }
      else { l with rx := { l.rx with toCome := l.rx.toCome - 1 } }))))) ∧
  ∀ (n : LineNo) (bits : OctetBits) (b : Byte) (i : Nat) (s : State), s.rstLow = false → (s.line n).isSync = true →
    (s.line n).rx.state = .assembling → (s.line n).rx.current = some i →
    (∀ k : Fin 8, b.getLsbD (7 - k.val) = bits[k]) →
    let rx := (s.line n).rx
    let counted := s.modLine n (fun l => { l with rx := { l.rx with count := l.rx.count + 1, toCome := l.rx.toCome - 1 } })
    let left := counted.modLine n (fun l =>
      { l.leaveAssembling .synced with
        rx := { (l.leaveAssembling .synced).rx with patternRequired := true, toCome := 0 } })
    let passes : Prop := highFirst rx.crc.toNat = [rx.crcHigh, b]
    let gives (u : State) : Prop := exec (.syncOctet n bits) s = .next (serve false (settleLine false n u))
    let queued (o : FrameOutcome) : State :=
      placeFrame n i (left.modFrame i (fun q => { q with outcome := some (q.outcome.getD o) }))
    (2 < rx.toCome → appendOctet .receiveData i b counted = none →
      gives ((freeFrame i counted).modLine n (fun l => { l.leaveAssembling .discard with
        rx := { (l.leaveAssembling .discard).rx with pendingLoss := true }
        counters := { l.counters with rxLost := satInc l.counters.rxLost } }))) ∧
    (2 < rx.toCome → ∀ t, appendOctet .receiveData i b counted = some t →
      gives (t.modLine n (fun l => { l with rx := { l.rx with crc := lineCrcOctet l.rx.crc b } }))) ∧
    (rx.toCome = 2 → gives (counted.modLine n (fun l => { l with rx := { l.rx with crcHigh := b } }))) ∧
    (rx.toCome < 2 → passes → gives (queued .ok)) ∧
    (rx.toCome < 2 → ¬ passes → (s.line n).config.deliverErrors = true → gives (queued .crc)) ∧
    (rx.toCome < 2 → ¬ passes → (s.line n).config.deliverErrors = false →
      gives ((freeFrame i left).modLine n (fun l =>
        { l with counters := { l.counters with rxErrors := satInc l.counters.rxErrors } })))

/-- O32.  Placing a completed frame, row by row of Table 4.7, with its number and loss mark (4.6, 4.7). -/
def Obligations.PlacingRows : Prop :=
  ∀ (n : LineNo) (i : Nat) (s : State) (r : FrameRecord), s.frame i = some r →
    let rx := (s.line n).rx
    let quota := (s.line n).config.quota
    let next := (rx.nextNumber + 1) % 65536
    (rx.queue.length < quota →
      placeFrame n i s =
        (s.modFrame i (fun q => { q with state := .queued, number := rx.nextNumber, lossMark := rx.pendingLoss })).modLine n
          (fun l => { l with
            rx := { l.rx with nextNumber := next, pendingLoss := false, queue := l.rx.queue ++ [i] }
            counters := { l.counters with rxFrames := satInc l.counters.rxFrames } })) ∧
    ∀ j q, quota ≤ rx.queue.length → rx.queue.getLast? = some j → s.frame j = some q → j ≠ i →
      let begun : Prop := q.state = .delivering ∨ q.state = .sent ∨ (q.state = .queued ∧ q.resent = true)
      (¬ begun →
        placeFrame n i s =
          ((freeFrame j s).modFrame i (fun q => { q with state := .queued, number := rx.nextNumber, lossMark := true })).modLine n
            (fun l => { l with
              rx := { l.rx with nextNumber := next, pendingLoss := false, queue := l.rx.queue.dropLast ++ [i] }
              counters := { l.counters with
                rxFrames := satInc l.counters.rxFrames, rxLost := satInc l.counters.rxLost } })) ∧
      (begun →
        placeFrame n i s =
          (freeFrame i s).modLine n (fun l => { l with
            rx := { l.rx with nextNumber := next, pendingLoss := true }
            counters := { l.counters with rxLost := satInc l.counters.rxLost } }))

/-- O33.  Level changes on LCLRn and LCARn (4.5, 5.1): the live value follows; under GATE_RX CARRIER off discards a frame in
assembly, abandons a character in progress and gates the receiver unless it is OFF or MUTED, and CARRIER on lets a GATED receiver
listen. -/
def Obligations.InputPinChanges : Prop :=
  (∀ (n : LineNo) (high : Bool) (s : State), s.rstLow = false → (s.line n).clear ≠ high →
    exec (.clearChange n high) s =
      .next (serve false (settleLine false n (s.modLine n (fun l => { l with clear := high }))))) ∧
  ∀ (n : LineNo) (high : Bool) (s : State), s.rstLow = false → (s.line n).carrier ≠ high →
    let l := s.line n
    let t := s.modLine n (fun k => { k with carrier := high })
    let gives (u : State) : Prop := exec (.carrierChange n high) s = .next (serve false (settleLine false n u))
    (l.config.gateRx = false → gives t) ∧
    (l.config.gateRx = true → high = true → l.rx.state ≠ .gated → gives t) ∧
    (l.config.gateRx = true → high = true → l.rx.state = .gated →
      gives (t.modLine n (fun k => { k with rx :=
        if k.isSync then { k.rx with state := .seek, patternRequired := false } else { k.rx with state := .discard } }))) ∧
    (l.config.gateRx = true → high = false →
      (l.rx.state = .off ∨ l.rx.state = .gated ∨ l.rx.state = .muted) → gives t) ∧
    (l.config.gateRx = true → high = false →
      (l.rx.state = .idle ∨ l.rx.state = .discard ∨ l.rx.state = .breaking ∨ l.rx.state = .seek ∨ l.rx.state = .synced) →
      gives (t.modLine n (fun k => { k with rx := { k.rx with state := .gated, character := .waiting, toCome := 0 } }))) ∧
    ∀ i, l.config.gateRx = true → high = false → l.rx.state = .assembling → l.rx.current = some i →
      gives ((freeFrame i t).modLine n (fun k => { k.leaveAssembling .gated with
        counters := { k.counters with rxErrors := satInc k.counters.rxErrors } }))

/-! ## Conditions -/

/-- O34.  ACK_CONDITION (R101). -/
def Obligations.AckConditionEffect : Prop :=
  ∀ (s : State) (tag b : Byte), s.Executes .ackCondition tag [b] →
    (8 ≤ b.toNat → exec .ackCondition s = .next (s.answered .ackCondition tag .badLine [])) ∧
    ∀ n : LineNo, n.val = b.toNat →
      ((s.line n).group.latched = false → exec .ackCondition s = .next (s.answered .ackCondition tag .ok [])) ∧
      ((s.line n).group.latched = true →
        exec .ackCondition s = .next (State.answered (s.modLine n (fun l => { l with group :=
          if l.state ≠ .closed ∧ l.live ≠ l.group.snapshot then
            { snapshot := l.live, latched := true, reportPending := l.config.reportConditions }
          else { l.group with latched := false, reportPending := false } })) .ackCondition tag .ok []))

/-- O35.  The judgment of live conditions (5.2, Table 5.2): a FREE live group whose snapshot differs takes all four live values,
latches, and makes a report pending under REPORT_CONDITIONS; in every other case nothing changes. -/
def Obligations.ConditionJudgment : Prop :=
  ∀ (n : LineNo) (s : State),
    let l := s.line n
    (l.state ≠ .closed → l.group.latched = false → l.live ≠ l.group.snapshot →
      judgeConditions n s = s.modLine n (fun k => { k with group :=
        { snapshot := k.live, latched := true, reportPending := k.group.reportPending || k.config.reportConditions } })) ∧
    (l.state = .closed ∨ l.group.latched = true ∨ l.live = l.group.snapshot → judgeConditions n s = s) ∧
    (l.live.carrier = l.carrier ∧ l.live.clear = l.clear ∧ (l.live.breaking = true ↔ l.rx.state = .breaking) ∧
      (l.live.synced = true ↔
        l.isSync = true ∧ (l.rx.state = .synced ∨ l.rx.state = .assembling ∨ l.rx.state = .discard)))

/-! ## Opening, changing and closing lines -/

/-- O36.  The parameters of OPEN_LINE (6.2, Tables 6.2 and 10.6): exactly those in range are taken, each from its octets, and a
parameter that does not apply is neither checked nor kept. -/
def Obligations.OpenLineParameterRanges : Prop :=
  ∀ (framing rate clock parity stop gap pLow pHigh leadIn duplex turn options quota limit weight lLow lHigh threshold : Byte)
    (c : LineConfig),
    let pattern := pLow.toNat + 256 * pHigh.toNat
    let life := lLow.toNat + 256 * lHigh.toNat
    openFields [framing, rate, clock, parity, stop, gap, pLow, pHigh, leadIn, duplex, turn, options, quota, limit, weight, lLow,
        lHigh, threshold] = some c ↔
      ((framing = 0#8 ∧ 1 ≤ stop.toNat ∧ stop.toNat ≤ 2 ∧ 2 ≤ gap.toNat ∧ gap.toNat ≤ 16 ∧
          ((parity = 0#8 ∧ c.framing = .gap .none stop.toNat gap.toNat) ∨
            (parity = 1#8 ∧ c.framing = .gap .even stop.toNat gap.toNat) ∨
            (parity = 2#8 ∧ c.framing = .gap .odd stop.toNat gap.toNat))) ∨
        (framing = 1#8 ∧ 1 ≤ pattern ∧ pattern ≤ 65534 ∧ 2 ≤ leadIn.toNat ∧ leadIn.toNat ≤ 15 ∧
          ((clock = 0#8 ∧ c.framing = .sync .line pattern leadIn.toNat) ∨
            (clock = 1#8 ∧ c.framing = .sync .internal pattern leadIn.toNat)))) ∧
      rate.toNat ≤ 13 ∧ c.rateCode = rate.toNat ∧
      ((duplex = 0#8 ∧ c.duplex = .full) ∨ (duplex = 1#8 ∧ c.duplex = .half turn.toNat)) ∧
      c.gateTx = options.getLsbD 0 ∧ c.gateRx = options.getLsbD 1 ∧ c.deliverErrors = options.getLsbD 2 ∧
      c.reportConditions = options.getLsbD 3 ∧ c.requestMode = (if options.getLsbD 4 then .frame else .line) ∧
      1 ≤ quota.toNat ∧ quota.toNat ≤ 32 ∧ c.quota = quota.toNat ∧ 1 ≤ limit.toNat ∧ limit.toNat ≤ 64 ∧
      c.limit = limit.toNat ∧ 1 ≤ weight.toNat ∧ weight.toNat ≤ 15 ∧ c.weight = weight.toNat ∧
      (life = 0 ∨ 10 ≤ life) ∧ c.lifetime = life ∧ threshold.toNat ≤ 32 ∧ c.threshold = threshold.toNat

/-- O37.  OPEN_LINE (6.2): refused by line number, then by value, then by state; accepted, it opens the line with its parameters,
counters at 0, the transmitter in IDLE for its selection judgment, the receiver by the entry judgment, and the snapshot of the
input levels. -/
def Obligations.OpenLineEffect : Prop :=
  ∀ (s : State) (tag line : Byte) (rest : List Byte), s.Executes .openLine tag (line :: rest) → rest.length = 18 →
    (8 ≤ line.toNat → exec .openLine s = .next (s.answered .openLine tag .badLine [])) ∧
    ∀ n : LineNo, n.val = line.toNat →
      (openFields rest = none → exec .openLine s = .next (s.answered .openLine tag .badValue [])) ∧
      ∀ c, openFields rest = some c →
        ((s.line n).state ≠ .closed ∨ (s.line n).close.reportPending = true →
          exec .openLine s = .next (s.answered .openLine tag .wrongState [])) ∧
        ((s.line n).state = .closed → (s.line n).close.reportPending = false →
          let sync : Bool := match c.framing with
            | .gap .. => false
            | .sync .. => true
          exec .openLine s = .next (State.answered (settleLine false n (s.modLine n (fun l =>
            let x : RxState := if c.gateRx = true ∧ l.carrier = false then .gated else if sync then .seek else .discard
            { l with
              state := .opened, config := c
              counters := { txFrames := 0, txAborts := 0, rxFrames := 0, rxErrors := 0, rxLost := 0 }
              tx := { l.tx with state := .idle, turnaroundTimer := none }
              rx := { l.rx with
                state := x, nextNumber := 0, pendingLoss := false
                patternRequired := if x = .seek then false else l.rx.patternRequired
                character := if x = .gated then .waiting else l.rx.character }
              group :=
                { snapshot := { carrier := l.carrier, clear := l.clear, breaking := false, synced := false }
                  latched := false, reportPending := false } }))) .openLine tag .ok []))

/-- O38.  SET_LINE (6.3): refused by line number, value, state, quota and limit in that order; accepted, it puts all seven values
into force together and withdraws a pending report when it clears REPORT_CONDITIONS. -/
def Obligations.SetLineEffect : Prop :=
  ∀ (s : State) (tag line weight lLow lHigh threshold options quota limit : Byte),
    s.Executes .setLine tag [line, weight, lLow, lHigh, threshold, options, quota, limit] →
    let life := lLow.toNat + 256 * lHigh.toNat
    let inRange : Prop := 1 ≤ weight.toNat ∧ weight.toNat ≤ 15 ∧ (life = 0 ∨ 10 ≤ life) ∧ threshold.toNat ≤ 32 ∧
      1 ≤ quota.toNat ∧ quota.toNat ≤ 32 ∧ 1 ≤ limit.toNat ∧ limit.toNat ≤ 64
    (8 ≤ line.toNat → exec .setLine s = .next (s.answered .setLine tag .badLine [])) ∧
    ∀ n : LineNo, n.val = line.toNat →
      let allowed : Prop := (s.line n).state = .opened ∧ (s.line n).rx.queue.length ≤ quota.toNat ∧
        (s.line n).frameCount ≤ limit.toNat
      (¬ inRange → exec .setLine s = .next (s.answered .setLine tag .badValue [])) ∧
      (inRange → ¬ allowed → exec .setLine s = .next (s.answered .setLine tag .wrongState [])) ∧
      (inRange → allowed →
        exec .setLine s = .next (State.answered (settleLine false n (s.modLine n (fun l => { l with
          config := { l.config with
            weight := weight.toNat, lifetime := life, threshold := threshold.toNat, deliverErrors := options.getLsbD 2
            reportConditions := options.getLsbD 3, quota := quota.toNat, limit := limit.toNat }
          group := { l.group with reportPending := l.group.reportPending && options.getLsbD 3 } }))) .setLine tag .ok []))

/-- O39.  CLOSE_LINE on a line that is not CLOSING (6.4): refused by line number, mode and state; on an OPEN line the steps of R116
in their order, with the receiver's (4.5) and a pending break's (3.10); and a line that holds nothing and is IDLE reaches CLOSED in
the same event, its report pending.  Reaching CLOSED (6.6): a CLOSING line that holds no transmit frame and no received frame and
whose transmitter is IDLE or HELD sends its DISCARDING frames to DONE in tag order, counted as flushed, and is CLOSED with its
report pending; with any of these conditions unmet nothing changes.  That the judgments of an event come at its end in the order
of settleLine, and that the tallies (6.7) stop at 65535, are the model's (assumption log 13, 17). -/
def Obligations.CloseLineEffect : Prop :=
  (∀ (n : LineNo) (s : State),
    let l := s.line n
    let due : Prop := l.state = .closing ∧ l.tx.urgent = [] ∧ l.tx.normal = [] ∧ l.tx.current = none ∧
      (l.tx.state = .idle ∨ l.tx.state = .held) ∧ l.rx.queue = []
    let t := judgeClosed n s
    let gone := discardingOf n s
    (¬ due → t = s) ∧
    (due →
      t.line n = { l with
        state := .closed
        tx := { l.tx with state := .off, turnaroundTimer := none, gapAfterBreak := false }
        rx := { l.rx with pendingLoss := false }
        group :=
          { snapshot := { carrier := false, clear := false, breaking := false, synced := false }
            latched := false, reportPending := false }
        close := { l.close with
          txMode := .drain, rxMode := .deliver, drainTimer := none, reportPending := true
          flushed := Nat.repeat satInc gone.length l.close.flushed } } ∧
      (∀ m, m ≠ n → t.line m = s.line m) ∧
      (∀ i, t.frame i = if i ∈ gone then (s.frame i).map (fun r => { r with state := .done }) else s.frame i) ∧
      t.completion = s.completion ++ gone.map EntryRef.frame ∧
      (∀ tag, Table.get t.tags tag =
        if gone.any (fun i => (s.frame i).any (fun r => r.tag = tag)) then none else Table.get s.tags tag) ∧
      t.store.freeCells = s.store.freeCells ∧ t.store.octets = s.store.octets ∧ t.replies = s.replies ∧ LineSide s t)) ∧
  (∀ (n : LineNo) (s : State),
    let l := s.line n
    (∀ i, l.rx.state = .assembling → l.rx.current = some i →
      closeReceiver n s = (freeFrame i s).modLine n (fun k => { k.leaveAssembling .off with
        counters := { k.counters with rxErrors := satInc k.counters.rxErrors } })) ∧
    (l.rx.state ≠ .assembling →
      closeReceiver n s = s.modLine n (fun k => { k with rx := { k.rx with state := .off, character := .waiting, toCome := 0 } })) ∧
    (l.tx.pendingBreak = none → endBreak n .aborted s = s) ∧
    ∀ b, l.tx.pendingBreak = some b →
      endBreak n .aborted s = joinReply { code := 0x14#8, tag := b.tag, status := .aborted, results := [] }
        (s.modLine n (fun k => { k with tx := { k.tx with
          pendingBreak := none
          breakTimer := if k.tx.state = .breaking then none else k.tx.breakTimer
          gapAfterBreak := if k.tx.state = .breaking then true else k.tx.gapAfterBreak
          state := if k.tx.state = .breaking then .gap else k.tx.state } }))) ∧
  ∀ (s : State) (tag line tmode rmode low high : Byte), s.Executes .closeLine tag [line, tmode, rmode, low, high] →
    (8 ≤ line.toNat → exec .closeLine s = .next (s.answered .closeLine tag .badLine [])) ∧
    ∀ n : LineNo, n.val = line.toNat →
      ((2 ≤ tmode.toNat ∨ 2 ≤ rmode.toNat) → exec .closeLine s = .next (s.answered .closeLine tag .badValue [])) ∧
      ∀ t r, txModeField tmode = some t → rxModeField rmode = some r →
        ((s.line n).state = .closed → exec .closeLine s = .next (s.answered .closeLine tag .wrongState [])) ∧
        ((s.line n).state = .opened →
          let limit := low.toNat + 256 * high.toNat
          let closing := closeReceiver n (s.modLine n (fun l => { l with
            state := .closing
            close := { l.close with
              txMode := t, rxMode := r, drainTimer := none, completed := 0, flushed := 0, discarded := 0 } }))
          let replied := joinReply { code := 0x11#8, tag := tag, status := .ok, results := [] } (endBreak n .aborted closing)
          let moved := match t with
            | .flush => flushHandling n replied
            | .drain => if limit = 0 then replied else
                replied.modLine n (fun l => { l with close := { l.close with drainTimer := some (limit + 1) } })
          let released := match r with
            | .deliver => moved
            | .discard => releaseDiscard n moved
          exec .closeLine s = .next (State.taken (settleLine false n released)) ∧
          ((s.line n).tx.state = .idle → (s.line n).tx.urgent = [] → (s.line n).tx.normal = [] →
            (s.line n).tx.current = none → (s.line n).tx.pendingBreak = none → (s.line n).rx.queue = [] →
            (s.line n).rx.current = none → discardingOf n s = [] →
            ∃ u, exec .closeLine s = .next (State.taken u) ∧ (u.line n).state = .closed ∧ (u.line n).tx.state = .off ∧
              (u.line n).rx.state = .off ∧ (u.line n).group = .reset ∧ (u.line n).close.reportPending = true ∧
              (u.line n).close.drainTimer = none ∧ (u.line n).close.completed = 0 ∧ (u.line n).close.flushed = 0 ∧
              (u.line n).close.discarded = 0 ∧ u.completion = s.completion ∧ u.tags = s.tags ∧
              u.replies = s.replies ++ [⟨{ code := 0x11#8, tag := tag, status := .ok, results := [] }, none⟩]))

/-- O40.  Escalation, row by row of Table 6.4 (6.5): FLUSH over DRAIN and DISCARD over DELIVER are taken, both in one event;
anything else is refused and changes nothing.  The release of receive mode DISCARD (6.4): every frame without delivery begun
leaves the receive queue, its record and chain are released, the discarded tally counts it, and the frames that stay keep their
order.  That the queue holds each frame once is stated in O59; the order in which the chains join the pool, and that the tally
stops at 65535, are the model's (assumption log 21, 17). -/
def Obligations.EscalationRows : Prop :=
  (∀ (n : LineNo) (s : State), (s.line n).rx.queue.Nodup →
    let l := s.line n
    let t := releaseDiscard n s
    let goes (i : Nat) : Bool := (s.frame i).any (fun r => !r.deliveryBegun)
    let gone := l.rx.queue.filter goes
    t.line n = { l with
      rx := { l.rx with queue := l.rx.queue.filter (fun i => !goes i) }
      close := { l.close with rxMode := .discard, discarded := Nat.repeat satInc gone.length l.close.discarded } } ∧
    (∀ m, m ≠ n → t.line m = s.line m) ∧
    (∀ i, t.frame i = if i ∈ gone then none else s.frame i) ∧
    t.store.freeCells =
      s.store.freeCells ++ gone.flatMap (fun i => (s.frame i).elim [] (fun r => r.chain.map ChainCell.cell)) ∧
    t.store.octets = s.store.octets ∧ t.tags = s.tags ∧ t.completion = s.completion ∧ t.replies = s.replies ∧ LineSide s t) ∧
  ∀ (s : State) (tag line tmode rmode low high : Byte) (n : LineNo),
    s.Executes .closeLine tag [line, tmode, rmode, low, high] → n.val = line.toNat → (s.line n).state = .closing →
    tmode.toNat < 2 → rmode.toNat < 2 →
    let tx : Prop := tmode = 1#8 ∧ (s.line n).close.txMode = .drain
    let rx : Prop := rmode = 1#8 ∧ (s.line n).close.rxMode = .deliver
    let gives (u : State) : Prop := exec .closeLine s =
      .next (State.taken (settleLine false n (joinReply { code := 0x11#8, tag := tag, status := .ok, results := [] } u)))
    (¬ tx → ¬ rx → exec .closeLine s = .next (s.answered .closeLine tag .wrongState [])) ∧
    (tx → ¬ rx → gives (flushHandling n s)) ∧
    (¬ tx → rx → gives (releaseDiscard n s)) ∧
    (tx → rx → gives (releaseDiscard n (flushHandling n s))) ∧
    ((flushHandling n s).line n).close.txMode = .flush ∧ ((flushHandling n s).line n).close.drainTimer = none ∧
    ((releaseDiscard n s).line n).close.rxMode = .discard ∧
    ∀ i, i ∈ ((releaseDiscard n s).line n).rx.queue ↔
      i ∈ (s.line n).rx.queue ∧ ∀ r, s.frame i = some r → r.deliveryBegun = true

/-- O41.  QUERY_LINE (6.9, Table 10.11): refused by line number and clear flag; otherwise 42 result octets, each code and bit as
Tables 10.17 to 10.19 give it, and the clear flag zeroes the five counters and nothing else.  That a CLOSED line reports the values
last in force on it is the model's reading (assumption log 16). -/
def Obligations.QueryLineEffect : Prop :=
  ∀ (s : State) (tag line flag : Byte), s.Executes .queryLine tag [line, flag] →
    (8 ≤ line.toNat → exec .queryLine s = .next (s.answered .queryLine tag .badLine [])) ∧
    ∀ n : LineNo, n.val = line.toNat →
      let l := s.line n
      let bit (k : Nat) (on : Bool) : Nat := if on then 2 ^ k else 0
      let lineCode : Nat := match l.state with
        | .closed => 0
        | .opened => 1
        | .closing => 2
      let closeBits : Nat := if l.state = .closing then
          bit 0 (decide (l.close.txMode = .flush)) + bit 1 (decide (l.close.rxMode = .discard)) else 0
      let lineFlags : Nat := bit 0 l.close.reportPending + bit 1 l.tx.pendingBreak.isSome + bit 2 l.tx.current.isSome +
        bit 3 l.rx.pendingLoss + bit 4 l.group.latched + bit 5 l.group.reportPending
      let framingCode : Nat := match l.config.framing with
        | .gap .. => 0
        | .sync .. => 1
      let duplexCode : Nat := match l.config.duplex with
        | .full => 0
        | .half _ => 1
      let options : Nat := bit 0 l.config.gateTx + bit 1 l.config.gateRx + bit 2 l.config.deliverErrors +
        bit 3 l.config.reportConditions + bit 4 (decide (l.config.requestMode = .frame))
      let txCode : Nat := match l.tx.state with
        | .off => 0
        | .idle => 1
        | .held => 2
        | .leadin => 3
        | .data => 4
        | .trailer => 5
        | .gap => 6
        | .breaking => 7
      let rxCode : Nat := match l.rx.state with
        | .off => 0
        | .gated => 1
        | .muted => 2
        | .discard => 3
        | .idle => 4
        | .breaking => 5
        | .seek => 6
        | .synced => 7
        | .assembling => 8
      let conditionBits (c : Conditions) : Nat :=
        bit 0 c.carrier + bit 1 c.clear + bit 2 c.breaking + bit 3 c.synced
      (2 ≤ flag.toNat → exec .queryLine s = .next (s.answered .queryLine tag .badValue [])) ∧
      (flag = 0#8 → exec .queryLine s = .next (s.answered .queryLine tag .ok (lineOctets n s))) ∧
      (flag = 1#8 → exec .queryLine s = .next (State.answered (s.modLine n (fun k => { k with
        counters := { txFrames := 0, txAborts := 0, rxFrames := 0, rxErrors := 0, rxLost := 0 } }))
        .queryLine tag .ok (lineOctets n s))) ∧
      (lineOctets n s).length = 42 ∧
      (∀ k, l.close.drainTimer = some k → k ≤ 65535 → ((lineOctets n s).drop 3).take 2 = octets16 k) ∧
      (l.close.drainTimer = none → ((lineOctets n s).drop 3).take 2 = [0#8, 0#8]) ∧
      (lineOctets n s).take 3 = [octet lineCode, octet closeBits, octet lineFlags] ∧
      ((lineOctets n s).drop 5).take 6 =
        octets16 l.close.completed ++ octets16 l.close.flushed ++ octets16 l.close.discarded ∧
      ((lineOctets n s).drop 11).take 9 =
        [octet framingCode, octet duplexCode, octet l.config.weight] ++ octets16 l.config.lifetime ++
          [octet l.config.threshold, octet options, octet l.config.quota, octet l.config.limit] ∧
      ((lineOctets n s).drop 20).take 4 =
        [octet txCode, octet l.tx.urgent.length, octet l.tx.normal.length, octet l.frameCount] ∧
      ((lineOctets n s).drop 24).take 2 = octets16 (discardingOf n s).length ∧
      ((lineOctets n s).drop 26).take 6 =
        [octet rxCode, octet l.rx.queue.length] ++ octets16 l.rx.nextNumber ++
          [octet (conditionBits l.live), octet (conditionBits l.group.snapshot)] ∧
      (lineOctets n s).drop 32 = octets16 l.counters.txFrames ++ octets16 l.counters.txAborts ++
        octets16 l.counters.rxFrames ++ octets16 l.counters.rxErrors ++ octets16 l.counters.rxLost

/-- O42.  SEND_BREAK (3.10) and SEEK_LINE (4.3, Table 4.5): their checks in order; an accepted SEND_BREAK makes the break pending
and forms no reply; an accepted SEEK_LINE acts on the receiver by its state. -/
def Obligations.SendBreakAndSeekLine : Prop :=
  (∀ (s : State) (tag line low high : Byte), s.Executes .sendBreak tag [line, low, high] →
    let d := low.toNat + 256 * high.toNat
    (8 ≤ line.toNat → exec .sendBreak s = .next (s.answered .sendBreak tag .badLine [])) ∧
    ∀ n : LineNo, n.val = line.toNat →
      (d = 0 → exec .sendBreak s = .next (s.answered .sendBreak tag .badValue [])) ∧
      (d ≠ 0 → ((s.line n).state ≠ .opened ∨ (s.line n).isSync = true) →
        exec .sendBreak s = .next (s.answered .sendBreak tag .wrongState [])) ∧
      (d ≠ 0 → (s.line n).state = .opened → (s.line n).isSync = false → (s.line n).tx.pendingBreak.isSome = true →
        exec .sendBreak s = .next (s.answered .sendBreak tag .busy [])) ∧
      (d ≠ 0 → (s.line n).state = .opened → (s.line n).isSync = false → (s.line n).tx.pendingBreak = none →
        exec .sendBreak s = .next (State.taken (settleLine false n (s.modLine n (fun l =>
          { l with tx := { l.tx with pendingBreak := some { tag := tag, duration := d } } })))))) ∧
  ∀ (s : State) (tag line : Byte), s.Executes .seekLine tag [line] →
    (8 ≤ line.toNat → exec .seekLine s = .next (s.answered .seekLine tag .badLine [])) ∧
    ∀ n : LineNo, n.val = line.toNat →
      let gives (u : State) : Prop := exec .seekLine s = .next (State.answered (settleLine false n u) .seekLine tag .ok [])
      (((s.line n).state ≠ .opened ∨ (s.line n).isSync = false) →
        exec .seekLine s = .next (s.answered .seekLine tag .wrongState [])) ∧
      ((s.line n).state = .opened → (s.line n).isSync = true →
        (∀ i, (s.line n).rx.state = .assembling → (s.line n).rx.current = some i →
          gives ((freeFrame i s).modLine n (fun l => { l.leaveAssembling .seek with
            counters := { l.counters with rxErrors := satInc l.counters.rxErrors } }))) ∧
        (((s.line n).rx.state = .synced ∨ (s.line n).rx.state = .discard) →
          gives (s.modLine n (fun l =>
            { l with rx := { l.rx with state := .seek, patternRequired := false, toCome := 0 } }))) ∧
        (((s.line n).rx.state = .seek ∨ (s.line n).rx.state = .gated ∨ (s.line n).rx.state = .muted) → gives s))

/-- O43.  CANCEL_FRAME, row by row of Table 2.5 (2.7). -/
def Obligations.CancelFrameRows : Prop :=
  ∀ (s : State) (tag low high : Byte), s.Executes .cancelFrame tag [low, high] →
    let named := low.toNat + 256 * high.toNat
    (Table.get s.tags named = none → exec .cancelFrame s = .next (s.answered .cancelFrame tag .notFound [])) ∧
    ∀ i r, Table.get s.tags named = some i → s.frame i = some r →
      let gives (u : State) : Prop :=
        exec .cancelFrame s = .next (State.answered (settleLine false r.line u) .cancelFrame tag .ok [])
      (r.state = .discarding → gives s) ∧
      (r.state = .filling ∨ r.state = .ready → gives (failFrame .cancelled i s)) ∧
      (r.state = .sending → ∃ u, gives u ∧ KeepsBut r.line i s u ∧ u.line r.line = s.line r.line ∧
        u.frame i = some { r with outcome := some (r.outcome.getD .cancelled) })

/-- O44.  REDIRECT (2.8): its checks in order; accepted, it moves as many candidates as there is room for, none of them younger
than one left behind, and of equal ages URGENT before NORMAL and nearer the head first; each in the order of its queue, to the
head or the tail of the queue of its priority; only their line changes; the reply gives the moved and the remaining count. -/
def Obligations.RedirectEffect : Prop :=
  ∀ (s : State) (tag source destination selector position : Byte),
    s.Executes .redirect tag [source, destination, selector, position] →
    let refused (st : ReplyStatus) : Prop := exec .redirect s = .next (s.answered .redirect tag st [])
    ((8 ≤ source.toNat ∨ 8 ≤ destination.toNat) → refused .badLine) ∧
    ∀ src dst : LineNo, src.val = source.toNat → dst.val = destination.toNat →
      ((src = dst ∨ 3 ≤ selector.toNat ∨ 2 ≤ position.toNat) → refused .badValue) ∧
      (src ≠ dst → selector.toNat ≤ 2 → position.toNat ≤ 1 →
        ((s.line dst).state ≠ .opened ∨ (s.line src).state = .closed → refused .wrongState) ∧
        ((s.line dst).state = .opened → (s.line src).state ≠ .closed →
          let urgent := if selector = 1#8 then [] else (s.line src).tx.urgent
          let normal := if selector = 0#8 then [] else (s.line src).tx.normal
          let room := (s.line dst).config.limit - (s.line dst).frameCount
          let moved := min room (urgent.length + normal.length)
          let age (i : Nat) : Nat := (s.frame i).elim 0 FrameRecord.age
          let taken (pick : Nat → Bool) (q : List Nat) : List Nat := (q.zipIdx.filter (fun x => pick x.2)).map Prod.fst
          ∃ u runU runM, ∃ pickU pickM : Nat → Bool,
            (runU = taken pickU urgent ∧ runM = taken pickM normal ∧
              (selector ≠ 1#8 → (u.line src).tx.urgent = taken (fun k => !pickU k) urgent) ∧
              (selector ≠ 0#8 → (u.line src).tx.normal = taken (fun k => !pickM k) normal) ∧
              (∀ p q i j, urgent[p]? = some i → urgent[q]? = some j → pickU p = true → pickU q = false →
                age j < age i ∨ (age j = age i ∧ p < q)) ∧
              (∀ p q i j, normal[p]? = some i → normal[q]? = some j → pickM p = true → pickM q = false →
                age j < age i ∨ (age j = age i ∧ p < q)) ∧
              (∀ p q i j, normal[p]? = some i → urgent[q]? = some j → pickM p = true → pickU q = false → age j < age i)) ∧
            exec .redirect s = .next (State.answered (settleLine false dst (settleLine false src u)) .redirect tag .ok
              [octet moved, octet (urgent.length + normal.length - moved)]) ∧
            runU.length + runM.length = moved ∧ runU.Sublist urgent ∧ runM.Sublist normal ∧
            (u.line src).tx.urgent.Sublist (s.line src).tx.urgent ∧ (u.line src).tx.normal.Sublist (s.line src).tx.normal ∧
            ((u.line src).tx.urgent ++ runU).Perm (s.line src).tx.urgent ∧
            ((u.line src).tx.normal ++ runM).Perm (s.line src).tx.normal ∧
            (selector ≠ 1#8 → ∀ i ∈ runU ++ runM, ∀ j ∈ (u.line src).tx.urgent, age j ≤ age i) ∧
            (selector ≠ 0#8 → ∀ i ∈ runU ++ runM, ∀ j ∈ (u.line src).tx.normal, age j ≤ age i) ∧
            (u.line dst).tx.urgent =
              (if position = 0#8 then runU ++ (s.line dst).tx.urgent else (s.line dst).tx.urgent ++ runU) ∧
            (u.line dst).tx.normal =
              (if position = 0#8 then runM ++ (s.line dst).tx.normal else (s.line dst).tx.normal ++ runM) ∧
            (∀ i, u.frame i = if i ∈ runU ++ runM then (s.frame i).map (fun r => { r with line := dst }) else s.frame i) ∧
            (∀ m, u.line m = { s.line m with tx := { (s.line m).tx with
              urgent := (u.line m).tx.urgent, normal := (u.line m).tx.normal } }) ∧
            (∀ m, m ≠ src → m ≠ dst → u.line m = s.line m) ∧ LineSide s u ∧ u.store.freeCells = s.store.freeCells ∧
            u.store.octets = s.store.octets ∧ u.tags = s.tags ∧ u.completion = s.completion ∧ u.replies = s.replies))

/-! ## Device commands and the reply queue -/

/-- O45.  IDENTIFY (R176): the same identification in every state, the part code and revision those of every WELCOME. -/
def Obligations.IdentifyReply : Prop :=
  (∀ (s : State) (tag : Byte), s.Executes .identify tag [] →
    exec .identify s = .next (s.answered .identify tag .ok
      [0x08#8, 0x02#8, 0x02#8, 0x08#8, 0x00#8, 0x08#8, 0x80#8, 0x01#8])) ∧
  ∀ (s : State), s.link.sending = none → s.link.item = .welcome →
    ((serve false s).link.sending.map PartRecord.payload).map (List.drop 1) = some [0x08#8, 0x02#8, 0x02#8] ∧
      ((serve true s).link.sending.map PartRecord.payload).map (List.drop 1) = some [0x08#8, 0x02#8, 0x02#8]

/-- O46.  SET_DEVICE and QUERY_DEVICE (9.3): both values or neither; the 23 result octets; the clear flag zeroes the six device
counters and nothing else. -/
def Obligations.DeviceParametersAndCounters : Prop :=
  (∀ (s : State) (tag low high reserve : Byte), s.Executes .setDevice tag [low, high, reserve] →
    let floor := low.toNat + 256 * high.toNat
    ((1024 < floor ∨ 64 < reserve.toNat) → exec .setDevice s = .next (s.answered .setDevice tag .badValue [])) ∧
    (floor ≤ 1024 → reserve.toNat ≤ 64 →
      exec .setDevice s = .next (State.answered { s with reserveFloor := floor, recordReserve := reserve.toNat }
        .setDevice tag .ok []))) ∧
  ∀ (s : State) (tag flag : Byte), s.Executes .queryDevice tag [flag] →
    let results := octets16 s.store.freeCells.length ++ octets16 (384 - s.store.frames.length) ++
      octets16 s.completion.length ++ [octet (16 - s.rejects.length), octet s.occupied] ++ octets16 s.reserveFloor ++
      [octet s.recordReserve] ++ octets16 s.straySegments ++ octets16 s.link.crcErrors ++ octets16 s.link.naksSent ++
      octets16 s.link.retransmissions ++ octets16 s.link.drops ++ octets16 s.link.ackErrors
    results.length = 23 ∧
    (2 ≤ flag.toNat → exec .queryDevice s = .next (s.answered .queryDevice tag .badValue [])) ∧
    (flag = 0#8 → exec .queryDevice s = .next (s.answered .queryDevice tag .ok results)) ∧
    (flag = 1#8 → exec .queryDevice s = .next (State.answered { s with
      straySegments := 0
      link := { s.link with crcErrors := 0, naksSent := 0, retransmissions := 0, drops := 0, ackErrors := 0 } }
      .queryDevice tag .ok results))

/-- O47.  What every command meets before its own checks (9.1, 9.2): with 16 places occupied it stalls and nothing else changes,
but for a RESET_DEVICE without parameters; an empty payload, an unknown code and a wrong length are refused, code and tag
echoed as far as there are any.  A new judgment of a command that stalls is that of the command offered again: with 16 places
occupied it stays stalled and nothing changes, with a place free its row executes it.  The thirteen codes, the length of the
parameters of each, and the row that executes it (Tables 9.2 and 10.5). -/
def Obligations.CommandsStallOrAreRefused : Prop :=
  (∀ c : CommandCode, (c.octet, c.paramLength, c.row) =
    match c with
    | .identify => (0x01#8, 0, Instr.identify)
    | .setDevice => (0x02#8, 3, Instr.setDevice)
    | .queryDevice => (0x03#8, 1, Instr.queryDevice)
    | .resetDevice => (0x04#8, 0, Instr.resetDevice)
    | .openLine => (0x10#8, 19, Instr.openLine)
    | .closeLine => (0x11#8, 5, Instr.closeLine)
    | .queryLine => (0x12#8, 2, Instr.queryLine)
    | .ackCondition => (0x13#8, 1, Instr.ackCondition)
    | .sendBreak => (0x14#8, 3, Instr.sendBreak)
    | .seekLine => (0x15#8, 1, Instr.seekLine)
    | .cancelFrame => (0x16#8, 2, Instr.cancelFrame)
    | .redirect => (0x17#8, 4, Instr.redirect)
    | .setLine => (0x18#8, 8, Instr.setLine)) ∧
  (∀ (s : State) (payload : List Byte), s.rstLow = false → s.link.headStalled = true →
    s.link.inbound.head? = some { kind := .command, payload := payload } →
    (∀ c : CommandCode, payload.head? = some c.octet → exec c.row s.offered = .next (serve false (rejudgeCommand s))) ∧
    ((∀ c : CommandCode, payload.head? ≠ some c.octet) →
      exec .unknownCommand s.offered = .next (serve false (rejudgeCommand s))) ∧
    (s.occupied = 16 → ¬ (payload.head? = some CommandCode.resetDevice.octet ∧ payload.length = 2) → rejudgeCommand s = s) ∧
    (s.occupied < 16 → s.offered.link.headStalled = false ∧ s.offered.occupied = s.occupied ∧
      s.offered.link.inbound = s.link.inbound)) ∧
  (∀ s : State,
    (s.link.headStalled = false ∨ ∀ p, s.link.inbound.head? ≠ some { kind := .command, payload := p }) →
    rejudgeCommand s = s) ∧
  (∀ (s : State) (payload : List Byte), s.rstLow = false → s.link.headStalled = false →
    s.link.inbound.head? = some { kind := .command, payload := payload } → s.occupied = 16 →
    let stalls (c : Instr) : Prop := exec c s = .next (serve false (s.modLink (fun h => { h with headStalled := true })))
    (∀ c : CommandCode, payload.head? = some c.octet → ¬ (c = .resetDevice ∧ payload.length = 2) → stalls c.row) ∧
    ((∀ c : CommandCode, payload.head? ≠ some c.octet) → stalls .unknownCommand)) ∧
  ∀ (s : State) (payload : List Byte), s.rstLow = false → s.link.headStalled = false →
    s.link.inbound.head? = some { kind := .command, payload := payload } → s.occupied < 16 →
    let gives (row : Instr) (code tag : Byte) (status : ReplyStatus) : Prop :=
      exec row s = .next (serve false (endExecution
        (joinReply { code := code, tag := tag, status := status, results := [] } s)))
    (payload = [] → gives .unknownCommand 0#8 0#8 .badFormat) ∧
    (∀ code rest, payload = code :: rest → (∀ c : CommandCode, c.octet ≠ code) →
      gives .unknownCommand code (rest.head?.getD 0#8) .unknownCommand) ∧
    ∀ (c : CommandCode) rest, payload = c.octet :: rest → rest.length ≠ c.paramLength + 1 →
      gives c.row c.octet (rest.head?.getD 0#8) .badFormat

/-! ## Upstream Arbiter -/

/-- O48.  The class order (R129): at every ask the first class of Table 7.1 with sendable work forms the record, and no class
keeps a turn.  A REPLY record marks its entry carried, a CONDITION or CLOSED record clears its line's flag, and the entries a
TX_DONE record takes become reported; with none of these four the record and its effect are those of the RX data class (O49). -/
def Obligations.ClassOrder : Prop :=
  ∀ s : State,
    let reply : Prop := ∃ e ∈ s.replies, e.carriedBy = none
    let condition : Prop := ∃ n, (s.line n).group.reportPending = true
    let txDone : Prop := ∃ e ∈ s.completion, entryReported s e = false
    let closed : Prop := ∃ n, (s.line n).close.reportPending = true ∧
      ∀ e ∈ s.completion, entryReported s e = false → entryLine s e ≠ some n.val
    let rxData : Prop := ∃ n, (deliveryPointer s n).isSome = true
    let forms (x : Content → State → Prop) : Prop := ∃ c t, formRecord s = some (c, t) ∧ x c t
    (reply → forms (fun c t => c = .reply ∧ ∃ older e newer, s.replies = older ++ e :: newer ∧ (∀ o ∈ older, o.carriedBy ≠ none) ∧
      e.carriedBy = none ∧ t = { s with replies := older ++ { e with carriedBy := some s.link.vS } :: newer })) ∧
    (¬ reply → condition →
      forms (fun c t => ∃ n, c = .condition n (s.line n).group.snapshot ∧ (s.line n).group.reportPending = true ∧
        (∀ m, m < n → (s.line m).group.reportPending = false) ∧
        t = s.modLine n (fun l => { l with group := { l.group with reportPending := false } }))) ∧
    (¬ reply → ¬ condition → txDone →
      let batch := (s.completion.filter (fun e => !entryReported s e)).take 12
      forms (fun c t => c = .txDone batch ∧ t.completion = s.completion ∧
        (∀ i, t.frame i =
          if .frame i ∈ batch then (s.frame i).map (fun r => { r with reported := true }) else s.frame i) ∧
        (∀ k, Table.get t.rejects k =
          if .reject k ∈ batch then (Table.get s.rejects k).map (fun j => { j with reported := true })
          else Table.get s.rejects k) ∧
        t = { s with store := { s.store with frames := t.store.frames }, rejects := t.rejects })) ∧
    (¬ reply → ¬ condition → ¬ txDone → closed →
      forms (fun c t => ∃ n, c = .closed n (s.line n).close.completed (s.line n).close.flushed (s.line n).close.discarded ∧
        (s.line n).close.reportPending = true ∧ (∀ m, m < n → (s.line m).close.reportPending = false) ∧
        t = s.modLine n (fun l => { l with close := { l.close with reportPending := false } }))) ∧
    (¬ reply → ¬ condition → ¬ txDone → ¬ closed → rxData →
      forms (fun c _ => ∃ n turn i offset length first last lossBefore resent, chooseLine s = some (n, turn) ∧
        deliveryPointer s n = some i ∧ c = .rxSegment i offset length first last lossBefore resent)) ∧
    (¬ reply → ¬ condition → ¬ txDone → ¬ closed → formRecord s = formSegment s) ∧
    (¬ reply → ¬ condition → ¬ txDone → ¬ closed → ¬ rxData → formRecord s = none)

/-- O49.  RX data (7.4, 7.5): the delivery pointer of a line is the first QUEUED or DELIVERING frame of its receive queue; the
pointed line has the turn while it has data and a turn left, otherwise the next line with data after it in ascending order,
wrapping, with its weight as its turn; the segment carries the next octets of the frame at the delivery pointer, and the frame
becomes SENT with its last.  The payload of each record of the five classes, read from its source at each sending (Table 7.4,
Tables 10.12 to 10.16). -/
def Obligations.RoundRobinSegments : Prop :=
  (∀ (s : State) (q : Seq),
    (∀ older e newer, s.replies = older ++ e :: newer → e.carriedBy = some q → (∀ o ∈ older, o.carriedBy ≠ some q) →
      payloadOf s { seq := q, content := .reply } =
        [e.reply.code, e.reply.tag, octet e.reply.status.code] ++ e.reply.results) ∧
    (∀ n (c : Conditions), payloadOf s { seq := q, content := .condition n c } =
      [octet n.val, octet ((if c.carrier then 1 else 0) + (if c.clear then 2 else 0) + (if c.breaking then 4 else 0) +
        (if c.synced then 8 else 0))]) ∧
    (∀ n completed flushed discarded, payloadOf s { seq := q, content := .closed n completed flushed discarded } =
      [octet n.val] ++ octets16 completed ++ octets16 flushed ++ octets16 discarded) ∧
    (∀ entries, ∃ parts : List (List Byte),
      payloadOf s { seq := q, content := .txDone entries } = octet entries.length :: parts.flatten ∧
      parts.length = entries.length ∧
      ∀ e part, (e, part) ∈ entries.zip parts →
        (∀ i r o, e = .frame i → s.frame i = some r → r.outcome = some o →
          part = [0x00#8] ++ octets16 r.tag ++ [octet r.line.val, octet o.code] ++ octets16 r.sentCount) ∧
        (∀ k j, e = .reject k → Table.get s.rejects k = some j →
          part = [0x01#8] ++ octets16 j.tag ++ [octet j.line, octet j.status.code, 0x00#8, 0x00#8])) ∧
    [FrameOutcome.ok, .underrun, .length, .nospace, .expired, .cancelled, .flushed].map FrameOutcome.code = [0, 1, 2, 3, 4, 5, 6] ∧
    [RejectStatus.lineClosed, .tagClash, .queueFull, .length, .noRecord].map RejectStatus.code = [0x10, 0x11, 0x12, 0x13, 0x14] ∧
    [ReplyStatus.ok, .badFormat, .unknownCommand, .badLine, .badValue, .wrongState, .notFound, .busy, .aborted].map
      ReplyStatus.code = [0, 1, 2, 3, 4, 5, 6, 7, 8]) ∧
  (∀ (s : State) (q : Seq) (i offset length : Nat) (first last lossBefore resent : Bool) (r : FrameRecord) (o : FrameOutcome),
    s.frame i = some r → r.outcome = some o →
    payloadOf s { seq := q, content := .rxSegment i offset length first last lossBefore resent } =
      [octet r.line.val, octet ((if first then 1 else 0) + (if last then 2 else 0) + (if lossBefore then 4 else 0) +
        (if resent then 8 else 0))] ++ octets16 r.number ++ octets16 offset ++ octets16 r.stored ++ [octet o.code] ++
        ((frameOctets s r).drop offset).take length) ∧
  [FrameOutcome.ok, .crc, .parity, .framing].map FrameOutcome.code = [0, 1, 2, 3] ∧
  (∀ (s : State) (n : LineNo),
    let waits (j : Nat) : Prop := ∃ r, s.frame j = some r ∧ (r.state = .queued ∨ r.state = .delivering)
    (∀ i, deliveryPointer s n = some i ↔
      ∃ before behind, (s.line n).rx.queue = before ++ i :: behind ∧ waits i ∧ ∀ j ∈ before, ¬ waits j) ∧
    (deliveryPointer s n = none ↔ ∀ j ∈ (s.line n).rx.queue, ¬ waits j)) ∧
  (∀ s : State, (deliveryPointer s s.pointer).isSome = true → 1 ≤ s.turnCount →
    chooseLine s = some (s.pointer, s.turnCount)) ∧
  (∀ (s : State) (n : LineNo) (d : Nat), ¬ ((deliveryPointer s s.pointer).isSome = true ∧ 1 ≤ s.turnCount) →
    1 ≤ d → d ≤ 8 → n.val = (s.pointer.val + d) % 8 → (deliveryPointer s n).isSome = true →
    (∀ e m, 1 ≤ e → e < d → m.val = (s.pointer.val + e) % 8 → deliveryPointer s m = none) →
    chooseLine s = some (n, (s.line n).config.weight)) ∧
  ∀ (s : State) (n : LineNo) (turn i : Nat) (r : FrameRecord), chooseLine s = some (n, turn) →
    deliveryPointer s n = some i → s.frame i = some r → r.cursor < r.stored → 1 ≤ s.link.segmentSize →
    let len := min s.link.segmentSize (r.stored - r.cursor)
    ∃ t, formSegment s = some (.rxSegment i r.cursor len (decide (r.cursor = 0)) (decide (r.cursor + len = r.stored))
        (decide (r.cursor = 0) && r.lossMark) r.resent, t) ∧ 1 ≤ len ∧
      t.frame i = some { r with
        cursor := r.cursor + len, state := if r.cursor + len = r.stored then .sent else .delivering } ∧
      (∀ j, j ≠ i → t.frame j = s.frame j) ∧ t.pointer = n ∧ t.turnCount = turn - 1 ∧ t.lines = s.lines ∧ t.link = s.link ∧
      t.completion = s.completion ∧ t.replies = s.replies ∧ t.store.freeCells = s.store.freeCells ∧
      t.store.octets = s.store.octets ∧ t.tags = s.tags ∧ t.rejects = s.rejects

/-! ## Host Link Controller -/

/-- O50.  The end of a sending, and the serializer's order (8.9): WELCOME or RESYNC, a NAK, a resend, a new record, an ACK; in DOWN
the first of these alone; nothing while a record is being sent.  A new record and a resent one carry the payload of their source
(7.6), which O49 spells.  With a new record the sources stand as its forming leaves them (O48, O49); every other sending leaves
all but the host link alone. -/
def Obligations.SerializerOrder : Prop :=
  (∀ s : State, s.rstLow = false → s.link.sending.isSome = true →
    exec .sendingEnd s = .next (serve false { s with link := { s.link with sending := none } })) ∧
  ∀ (tk : Bool) (s : State),
    let h := s.link
    let begins (base : State) (link : HostLink) (type : PartType) (seq : Seq) (payload : List Byte) : Prop :=
      serve tk s = { base with link := { link with
        sending := some { type := type, seq := seq, ack := h.vR, room := 8 - h.inbound.length, payload := payload }
        ackOwed := false, roomLastSent := 8 - h.inbound.length } }
    (h.sending.isSome = true → serve tk s = s) ∧
    (h.sending = none →
      (h.item = .welcome → begins s { h with item := .none, resetCause := .link } .welcome 0
        (octet (match h.resetCause with
          | .power => 0
          | .command => 1
          | .link => 2) :: [0x08#8, 0x02#8, 0x02#8])) ∧
      (h.item = .resync → begins s { h with item := .none } .resync 0 []) ∧
      (h.item = .none → h.state = .down → serve tk s = s) ∧
      (h.item = .none → h.state = .up →
        (h.nakPending = true → begins s { h with nakPending := false, naksSent := satInc h.naksSent } .nak 0 []) ∧
        (∀ c k, h.nakPending = false → h.cursor = some c → h.retained c = some k →
          begins s { h with cursor := if c + 1 = h.vS then none else some (c + 1) } k.content.type k.seq (payloadOf s k)) ∧
        (h.nakPending = false → h.cursor = none →
          let may : Prop := h.retain.length < 8 ∧ (h.vS - h.grantBase).toNat < h.grantRoom
          (∀ c t, may → formRecord s = some (c, t) →
            begins t { h with
              retain := h.retain ++ [{ seq := h.vS, content := c }], vS := h.vS + 1
              retransTimer := if h.retain = [] then
                  some (if tk then 10 * h.retransTimeout else 10 * h.retransTimeout + 1) else h.retransTimer }
              c.type h.vS (payloadOf t { seq := h.vS, content := c })) ∧
          ((¬ may ∨ formRecord s = none) →
            ((h.ackOwed = true ∨ 8 - h.inbound.length ≠ h.roomLastSent) → begins s h .ack 0 []) ∧
            (h.ackOwed = false → 8 - h.inbound.length = h.roomLastSent → serve tk s = s)))))

/-- O51.  Reception (8.2).  The octets behind a start octet are judged in three steps: a payload length above 256 ends the record
in error with the header; then CRC octets other than the record CRC (O28, assumption log 9), low octet first, end it in error; then a type that is
none of the five; a record that passes them is checked.  A host record that ends in error counts once in LINK_CRC_ERRORS; after an
error of its own the search resumes behind its start octet; after a character with a framing error the octets collected are not
searched.  Where octets of a discarded record are searched again, the record in error begins with them, or lies within them and
the rest of them is searched as well; a checked record in the same way, with the effect O52 to O54 give it in searching.  That a
record which cannot end so now changes nothing, and that a record within octets searched again is an event of its own, are the
model's (assumption log 8, 14, 22). -/
def Obligations.RecordErrorEffect : Prop :=
  (∀ octets : List Byte, octets.length < 6 → recordVerdict octets = .incomplete) ∧
  (∀ (type seq ack room low high : Byte) (rest : List Byte),
    let length := low.toNat + 256 * high.toNat
    let verdict := recordVerdict (type :: seq :: ack :: room :: low :: high :: rest)
    let crc := octets16 (recordCrc (type :: seq :: ack :: room :: low :: high :: rest.take length)).toNat
    (256 < length → rest = [] → verdict = .failed) ∧
    (256 < length → rest ≠ [] → verdict = .beyond) ∧
    (length ≤ 256 → rest.length < length + 2 → verdict = .incomplete) ∧
    (length ≤ 256 → length + 2 < rest.length → verdict = .beyond) ∧
    (length ≤ 256 → rest.length = length + 2 → rest.drop length ≠ crc → verdict = .failed) ∧
    (length ≤ 256 → rest.length = length + 2 → rest.drop length = crc →
      ((∀ t : HostType, type ≠ t.code) → verdict = .failed) ∧
      ∀ t : HostType, type = t.code →
        verdict = .checked t { seq := seq, ack := ack, room := room, payload := rest.take length })) ∧
  (∀ (octets : List Byte) (s : State), s.rstLow = false → s.link.reception = .searching →
    let gives (x : Reception) : Prop := exec (.receiveRecordError octets (recordVerdict octets = .incomplete)) s =
      .next (serve false { s with link := { s.link with reception := x, crcErrors := satInc s.link.crcErrors } })
    (recordVerdict octets = .incomplete → gives .searching) ∧
    (recordVerdict octets = .failed → 0xC3#8 ∉ octets → gives .searching) ∧
    (∀ before rest, recordVerdict octets = .failed → octets = before ++ 0xC3#8 :: rest → 0xC3#8 ∉ before →
      gives (.reading rest))) ∧
  (∀ (octets collected : List Byte) (s : State), s.rstLow = false → s.link.reception = .reading collected →
    let gives (bad : Bool) (x : Reception) : Prop := exec (.receiveRecordError octets bad) s =
      .next (serve false { s with link := { s.link with reception := x, crcErrors := satInc s.link.crcErrors } })
    let nothing (bad : Bool) : Prop := exec (.receiveRecordError octets bad) s = .next s
    (recordVerdict octets = .incomplete → collected <+: octets → gives true .searching) ∧
    (recordVerdict octets = .incomplete → ¬ collected <+: octets → nothing true) ∧
    (∀ x, recordVerdict octets = .failed → collected <+: octets → ResumesWith octets x → gives false x) ∧
    (∀ x, recordVerdict octets = .failed → octets <+: collected → ResumesWith collected x → gives false x) ∧
    (recordVerdict octets = .failed → ¬ collected <+: octets → ¬ octets <+: collected → nothing false)) ∧
  (∀ (octets : List Byte) (s : State),
    (recordVerdict octets ≠ .incomplete → exec (.receiveRecordError octets true) s = .next s) ∧
    (recordVerdict octets ≠ .failed → exec (.receiveRecordError octets false) s = .next s)) ∧
  ∀ (t : HostType) (r : HostRecord) (collected : List Byte) (s : State), s.rstLow = false →
    s.link.reception = .reading collected → r.payload.length ≤ 256 →
    let searching : State := { s with link := { s.link with reception := .searching } }
    (collected <+: hostOctets t r → exec (t.row r) s = exec (t.row r) searching) ∧
    (∀ rest, collected = hostOctets t r ++ rest → 0xC3#8 ∉ rest → exec (t.row r) s = exec (t.row r) searching) ∧
    (∀ before rest, collected = hostOctets t r ++ before ++ 0xC3#8 :: rest → 0xC3#8 ∉ before →
      ∃ u, exec (t.row r) searching = .next u ∧
        exec (t.row r) s = .next { u with link := { u.link with reception := .reading rest } }) ∧
    (¬ collected <+: hostOctets t r → ¬ hostOctets t r <+: collected → exec (t.row r) s = .next s)

/-- O52.  HELLO (8.4): in range, in DOWN and in UP alike, the link reset: the sources are rewound, the sequence variables are 0, the
parameters and the grant are the HELLO's, the link is UP, WELCOME is pending; out of range, RESYNC and nothing else but the
silence timer in UP.  The rewind of a retained record (7.8): a REPLY's entry is unsent again, a TX_DONE's entries are unreported,
a CONDITION or CLOSED report is pending again where the line still wants it and none is, an RX_SEGMENT has no rewind but that of
its frame. -/
def Obligations.HelloEffect : Prop :=
  (∀ (s : State) (q : Seq),
    rewindRecord s { seq := q, content := .reply } =
      { s with replies := s.replies.map (fun e => if e.carriedBy = some q then { e with carriedBy := none } else e) } ∧
    (∀ entries,
      let t := rewindRecord s { seq := q, content := .txDone entries }
      (∀ i, t.frame i =
        if .frame i ∈ entries then (s.frame i).map (fun r => { r with reported := false }) else s.frame i) ∧
      (∀ k, Table.get t.rejects k =
        if .reject k ∈ entries then (Table.get s.rejects k).map (fun j => { j with reported := false })
        else Table.get s.rejects k) ∧
      t = { s with store := { s.store with frames := t.store.frames }, rejects := t.rejects }) ∧
    (∀ n c, rewindRecord s { seq := q, content := .condition n c } = s.modLine n (fun l =>
      if l.group.latched = true ∧ l.group.reportPending = false ∧ l.config.reportConditions = true then
        { l with group := { l.group with reportPending := true } } else l)) ∧
    (∀ n a b c, rewindRecord s { seq := q, content := .closed n a b c } = s.modLine n (fun l =>
      if l.state = .closed then { l with close := { l.close with reportPending := true } } else l)) ∧
    (∀ i offset length first last lossBefore resent,
      rewindRecord s { seq := q, content := .rxSegment i offset length first last lossBefore resent } = s)) ∧
  ∀ (r : HostRecord) (s : State), s.rstLow = false → s.link.reception = .searching → r.payload.length ≤ 256 →
    (∀ t k q size : Byte, r.payload = [t, k, q, size] → 1 ≤ t.toNat → 1 ≤ k.toNat → k.toNat ≤ 15 → 16 ≤ size.toNat →
      size.toNat ≤ 240 → r.room.toNat ≤ 8 →
      ∃ u, exec (.hello r) s = .next (serve false u) ∧
        (∀ i, u.frame i = ((s.link.retain.foldl rewindRecord s).frame i).map (fun f =>
          if f.state = .delivering ∨ f.state = .sent then { f with state := .queued, cursor := 0, resent := true } else f)) ∧
        u.lines = (s.link.retain.foldl rewindRecord s).lines ∧ u.replies = (s.link.retain.foldl rewindRecord s).replies ∧
        u.rejects = (s.link.retain.foldl rewindRecord s).rejects ∧ u.completion = s.completion ∧ u.tags = s.tags ∧
        u.store.freeCells = s.store.freeCells ∧ u.store.octets = s.store.octets ∧ u.pointer = s.pointer ∧
        u.turnCount = s.turnCount ∧ u.reserveFloor = s.reserveFloor ∧ u.recordReserve = s.recordReserve ∧
        u.straySegments = s.straySegments ∧ u.rstLow = s.rstLow ∧ u.pending = s.pending ∧
        u.link = { s.link with
          retain := [], vS := 0, vA := 0, vR := 0, retryCount := 0, cursor := none, retransTimer := none
          retransTimeout := t.toNat, retryLimit := k.toNat, silenceTimeout := q.toNat, segmentSize := size.toNat
          grantBase := 0, grantRoom := r.room.toNat, nakSent := false, ackOwed := false, nakPending := false, state := .up
          silenceTimer := if q = 0#8 then none else some (100 * q.toNat + 1), item := .welcome }) ∧
    ((r.payload.length ≠ 4 ∨ 8 < r.room.toNat ∨
        (∃ t k q size : Byte, r.payload = [t, k, q, size] ∧
          (t.toNat = 0 ∨ k.toNat = 0 ∨ 15 < k.toNat ∨ size.toNat < 16 ∨ 240 < size.toNat))) →
      exec (.hello r) s = .next (serve false { s with link := { s.link with
        item := .resync
        silenceTimer := if s.link.state = .up ∧ s.link.silenceTimeout ≠ 0 then some (100 * s.link.silenceTimeout + 1)
          else s.link.silenceTimer } }))

/-- O53.  Host ACK and NAK (8.6, 8.7): in DOWN answered with RESYNC; in UP, out of range, counted in ACK_ERRORS; in range, the
acknowledged records leave the retain list, their sources release what they carried oldest first, row by row of Table 7.5, and
the grant is renewed; a NAK then sends again from its number.  The resend cursor that an acknowledgement passes moves with it.
The order in which the blocks then act on the releases is the model's (assumption log 7). -/
def Obligations.AcknowledgementRows : Prop :=
  (∀ (r : HostRecord) (s : State), s.rstLow = false → s.link.reception = .searching → r.payload.length ≤ 256 →
    (s.link.state = .down →
      exec (.hostAck r) s = .next (serve false { s with link := { s.link with item := .resync } }) ∧
      exec (.hostNak r) s = .next (serve false { s with link := { s.link with item := .resync } })) ∧
    (s.link.state = .up → (∀ a, ¬ s.link.InRange r.ack a) →
      exec (.hostAck r) s = .next (serve false s.heard.ackMissed) ∧
      exec (.hostNak r) s = .next (serve false s.heard.ackMissed)) ∧
    ∀ a, s.link.state = .up → s.link.InRange r.ack a →
      let after := s.heard.acknowledged a r.room.toNat
      exec (.hostAck r) s = .next (serve false after) ∧
      exec (.hostNak r) s = .next (serve false (after.modLink (fun h =>
        if a = h.vS then h else { h with cursor := some a, retransTimer := some (10 * h.retransTimeout + 1) })))) ∧
  (∀ (h : HostLink) (a : Seq),
    (h.cursor = none → h.cursorAfter a = none) ∧
    ∀ c, h.cursor = some c →
      ((c - h.vA).toNat < (a - h.vA).toNat → a ≠ h.vS → h.cursorAfter a = some a) ∧
      ((c - h.vA).toNat < (a - h.vA).toNat → a = h.vS → h.cursorAfter a = none) ∧
      ((a - h.vA).toNat ≤ (c - h.vA).toNat → h.cursorAfter a = some c)) ∧
  (∀ (s : State) (q : Seq),
    releaseRecord s { seq := q, content := .reply } =
      { s with replies := s.replies.filter (fun e => e.carriedBy ≠ some q) } ∧
    (∀ n c, releaseRecord s { seq := q, content := .condition n c } = s) ∧
    (∀ n a b c, releaseRecord s { seq := q, content := .closed n a b c } = s) ∧
    (∀ i offset length first lossBefore resent,
      releaseRecord s { seq := q, content := .rxSegment i offset length first false lossBefore resent } = s) ∧
    (∀ i offset length first lossBefore resent r, s.frame i = some r →
      releaseRecord s { seq := q, content := .rxSegment i offset length first true lossBefore resent } =
        (freeFrame i s).modLine r.line (fun l => { l with rx := { l.rx with queue := l.rx.queue.filter (· ≠ i) } })) ∧
    releaseRecord s { seq := q, content := .txDone [] } = s ∧
    (∀ i rest, releaseRecord s { seq := q, content := .txDone (.frame i :: rest) } =
      releaseRecord (freeFrame i { s with completion := s.completion.filter (· ≠ .frame i) })
        { seq := q, content := .txDone rest }) ∧
    (∀ k rest, releaseRecord s { seq := q, content := .txDone (.reject k :: rest) } =
      releaseRecord { s with completion := s.completion.filter (· ≠ .reject k), rejects := Table.del s.rejects k }
        { seq := q, content := .txDone rest }) ∧
    ∀ entries,
      let t := releaseRecord s { seq := q, content := .txDone entries }
      t.completion = s.completion.filter (· ∉ entries) ∧
        (∀ i, t.frame i = if .frame i ∈ entries then none else s.frame i) ∧
        (∀ k, Table.get t.rejects k = if .reject k ∈ entries then none else Table.get s.rejects k) ∧
        t = { s with store := t.store, completion := t.completion, rejects := t.rejects }) ∧
  ∀ (acked : List Retained) (lines : List LineNo) (s : State),
    let reply : Prop := ∃ k ∈ acked, k.content = .reply
    let slot : Prop := ∃ k ∈ acked, ∃ entries j, k.content = .txDone entries ∧ .reject j ∈ entries
    ∃ one two, (reply → one = rejudgeCommand s) ∧ (¬ reply → one = s) ∧ (slot → two = rejudgeSegment false one) ∧
      (¬ slot → two = one) ∧ afterReleases acked lines s = lines.foldl (fun t n => settleLine false n t) two ∧
      ∀ (k : Retained) (n : LineNo), k.emptiesLine s = some n ↔ ∃ i offset length first lossBefore resent r,
        k.content = .rxSegment i offset length first true lossBefore resent ∧ s.frame i = some r ∧ r.line = n

/-- O54.  A checked COMMAND or TX_SEGMENT (8.5, 8.6): its acknowledge field is taken first, with progress or without, or counted in
ACK_ERRORS when it is out of range; then the record is judged row by row of Table 8.5: accepted into the tail slot, discarded with
one NAK for each gap, or a duplicate acknowledged again; in DOWN answered with RESYNC.  That a pending NAK stays pending when a
record is accepted is the model's reading (assumption log 19). -/
def Obligations.SequencedRecordRows : Prop :=
  ∀ (kind : SequencedKind) (r : HostRecord) (s : State), s.rstLow = false → s.link.reception = .searching →
    r.payload.length ≤ 256 →
    (s.link.state = .down →
      exec (.hostSequencedRecord kind r) s = .next (serve false { s with link := { s.link with item := .resync } })) ∧
    (s.link.state = .up → r.ack.toNat = s.link.vA.toNat →
      s.heard.acknowledged s.link.vA r.room.toNat =
        { s.heard with link := { s.heard.link with grantBase := s.link.vA, grantRoom := min r.room.toNat 8 } }) ∧
    (s.link.state = .up → ∀ base : State,
      ((∃ a, s.link.InRange r.ack a ∧ base = s.heard.acknowledged a r.room.toNat) ∨
        ((∀ a, ¬ s.link.InRange r.ack a) ∧ base = s.heard.ackMissed)) →
      let h := base.link
      let gives (k : HostLink) : Prop := exec (.hostSequencedRecord kind r) s = .next (serve false { base with link := k })
      let inOrder : Prop := r.seq.toNat = h.vR.toNat
      let again : Prop := ∃ d : Seq, 1 ≤ d.toNat ∧ d.toNat ≤ 8 ∧ r.seq.toNat = (h.vR - d).toNat
      (inOrder → h.inbound.length < 8 →
        gives { h with
          inbound := h.inbound ++ [{ kind := kind, payload := r.payload }], vR := h.vR + 1, ackOwed := true
          nakSent := false }) ∧
      ((inOrder ∧ 8 ≤ h.inbound.length) ∨ (¬ inOrder ∧ ¬ again) → h.nakSent = false →
        gives { h with nakPending := true, nakSent := true }) ∧
      ((inOrder ∧ 8 ≤ h.inbound.length) ∨ (¬ inOrder ∧ ¬ again) → h.nakSent = true → gives h) ∧
      (again → gives { h with ackOwed := true }))

/-- O55.  The link timers (8.7, 8.8): an expiry of the retransmission timer sends everything again up to the retry limit and takes
the link DOWN beyond it; an expiry of the silence timer takes it DOWN; going DOWN keeps the retain list, the sequence variables,
the grant and the inbound buffer.  That each
expiry is an event of its own row, taken when the timer stands at 0, is the model's (assumption log 11). -/
def Obligations.LinkTimerExpiries : Prop :=
  ∀ s : State, s.rstLow = false → s.link.state = .up →
    let down (h : HostLink) : HostLink := { h with
      state := .down, retransTimer := none, silenceTimer := none, cursor := none, nakPending := false, ackOwed := false
      nakSent := false, item := .resync, drops := satInc h.drops }
    (s.link.retransTimer = some 0 → s.link.retryCount < s.link.retryLimit →
      exec .retransmissionTimerExpiry s = .next (serve true { s with link := { s.link with
        retryCount := s.link.retryCount + 1, cursor := some s.link.vA
        retransmissions := satInc s.link.retransmissions, retransTimer := some (10 * s.link.retransTimeout) } })) ∧
    (s.link.retransTimer = some 0 → s.link.retryLimit ≤ s.link.retryCount →
      exec .retransmissionTimerExpiry s = .next (serve true { s with
        link := down { s.link with retryCount := s.link.retryCount + 1 } })) ∧
    (s.link.silenceTimer = some 0 → exec .silenceTimerExpiry s = .next (serve true { s with link := down s.link }))

/-- O56.  Every host record that the layouts admit is read back from its octets, its CRC checked, type, header and payload as they
were; and no proper front part of its octets is taken for a record (8.2, 10.2).  The type codes of the five host records, and the
row of each. -/
def Obligations.HostRecordRoundTrip : Prop :=
  (∀ (t : HostType) (r : HostRecord), (t.code, t.row r) =
    match t with
    | .hello => (0x01#8, Instr.hello r)
    | .ack => (0x02#8, Instr.hostAck r)
    | .nak => (0x03#8, Instr.hostNak r)
    | .command => (0x10#8, Instr.hostSequencedRecord .command r)
    | .txSegment => (0x20#8, Instr.hostSequencedRecord .txSegment r)) ∧
  ∀ (t : HostType) (r : HostRecord), r.payload.length ≤ 256 →
    recordVerdict (hostOctets t r) = .checked t r ∧
      (hostOctets t r).length = r.payload.length + 8 ∧
      ∀ front, front <+: hostOctets t r → front ≠ hostOctets t r → recordVerdict front = .incomplete

/-- O57.  Every step keeps the laws of the host link: the window of at most 8 consecutive numbers from V(A) to V(S), the cursor
within it, the timers running exactly when they should, at most 8 inbound records, a grant of at most 8 (8.5 to 8.8). -/
def Obligations.LinkLawsKept : Prop := ∀ s t : State, s.link.sound → step s = .next t → t.link.sound

/-- O58.  Every step keeps the occupied count of the reply queue at 16 or less (9.2). -/
def Obligations.OccupiedCountBounded : Prop := ∀ s t : State, s.occupied ≤ 16 → step s = .next t → t.occupied ≤ 16

/-! ## Laws of the lines -/

/-- O59.  Every step keeps each line's state, transmitter and receiver in agreement, a character in progress only where characters
are read, its transmit frames within its limit, and its receive queue within its quota (2.5, 3.1, 4.1, 4.2, 4.7, 6.6).  Every step
keeps the custody of the frame records (1.5, 1.6): each record stands where its state says and nowhere else, each once, the Tag
Map holds exactly the tags of the live transmit frames, and the retained records refer to entries and frames that wait for the
host. -/
def Obligations.LinesStayPlacedAndBounded : Prop :=
  (∀ s t : State, (∀ n, (s.line n).placed ∧ (s.line n).bounded) → step s = .next t →
    ∀ n, (t.line n).placed ∧ (t.line n).bounded) ∧
  ∀ s t : State, s.tablesKept → (∀ n, (s.line n).placed) → s.custodyKept → s.retainedKept → step s = .next t →
    t.custodyKept ∧ t.retainedKept

/-- O60.  Every step keeps the reports of each line in order, and while the part is not held in reset a FREE live group has
nothing new: its snapshot is the live values (5.2, 5.3, 5.6, 6.7). -/
def Obligations.ReportLawsKept : Prop :=
  ∀ s t : State, (∀ n, (s.line n).reportsKept) → (s.rstLow = false → ∀ n, (s.line n).freeGroupCurrent) → step s = .next t →
    (∀ n, (t.line n).reportsKept) ∧ (t.rstLow = false → ∀ n, (t.line n).freeGroupCurrent)
end

