-- ==== Sys2Proof/Laws/Bits.lean ====
section
/-! SUPPORT. What is read from sampled bits: octets in either order of bits, characters, and the first match of the search. -/

namespace Sys2Proof.Machine

/-- Two octets with the same bits are the same. -/
theorem octet_eq_of_bits {a b : Byte} (h : ∀ k : Fin 8, a.getLsbD k.val = b.getLsbD k.val) : a = b :=
  BitVec.eq_of_getLsbD_eq (fun i hi => h ⟨i, hi⟩)

/-- The octet of bits that come least significant first has them at these places. -/
theorem getLsbD_octet_lowBitFirst (bits : OctetBits) (k : Fin 8) :
    (octet (lowBitFirst bits.toList)).getLsbD k.val = bits[k] := by
  obtain ⟨⟨l⟩, hl⟩ := bits
  match l, hl with
  | [b0, b1, b2, b3, b4, b5, b6, b7], _ =>
    revert b0 b1 b2 b3 b4 b5 b6 b7 k
    decide +kernel

/-- The octet of bits that come most significant first has them at these places. -/
theorem getLsbD_receivedOctet (bits : OctetBits) (k : Fin 8) : (receivedOctet bits).getLsbD (7 - k.val) = bits[k] := by
  obtain ⟨⟨l⟩, hl⟩ := bits
  match l, hl with
  | [b0, b1, b2, b3, b4, b5, b6, b7], _ =>
    revert b0 b1 b2 b3 b4 b5 b6 b7 k
    decide +kernel

/-- The octet whose bits come least significant first (R75). -/
theorem octet_lowBitFirst {bits : OctetBits} {b : Byte} (h : ∀ k : Fin 8, b.getLsbD k.val = bits[k]) :
    octet (lowBitFirst bits.toList) = b :=
  octet_eq_of_bits (fun k => by rw [getLsbD_octet_lowBitFirst, h])

/-- The octet whose bits come most significant first (R81). -/
theorem receivedOctet_eq {bits : OctetBits} {b : Byte} (h : ∀ k : Fin 8, b.getLsbD (7 - k.val) = bits[k]) :
    receivedOctet bits = b := by
  refine octet_eq_of_bits (fun k => ?_)
  have e : k.val = 7 - (7 - k : Fin 8).val := by revert k; decide
  rw [e, getLsbD_receivedOctet, h]

/-- What a character yields, by its octet (R75). -/
theorem receivedCharacter_eq {data : OctetBits} {b : Byte} (h : ∀ k : Fin 8, b.getLsbD k.val = data[k]) (p : Parity)
    (parityBit stopBit : Bool) :
    receivedCharacter p data parityBit stopBit =
      { octet := b, framingError := !stopBit, parityError := parityMark p b parityBit } := by
  simp [receivedCharacter, octet_lowBitFirst h, framingMark]

/-- A character with which a break may begin is octet 0 with its parity bit, if it has one, and its stop bit spacing (R79). -/
theorem nullCharacter_eq {data : OctetBits} {b : Byte} (h : ∀ k : Fin 8, b.getLsbD k.val = data[k]) (p : Parity)
    (parityBit stopBit : Bool) :
    nullCharacter p data parityBit stopBit = (decide (b = 0#8) && (decide (p = .none) || !parityBit) && !stopBit) := by
  have e : data.toList.all (fun sample => !sample) = decide (b = 0#8) := by
    rw [← octet_lowBitFirst h]
    obtain ⟨⟨l⟩, hl⟩ := data
    match l, hl with
    | [b0, b1, b2, b3, b4, b5, b6, b7], _ =>
      clear h
      revert b0 b1 b2 b3 b4 b5 b6 b7
      decide +kernel
  simp [nullCharacter, e, framingMark]

/-- The parts of a character's samples, by the format (R75). -/
theorem readCharacter_parts (data : OctetBits) (parityBit stop : Bool) :
    readCharacter .none (false :: data.toList ++ [stop]) = some (receivedCharacter .none data false stop) ∧
      readCharacter .even (false :: data.toList ++ [parityBit, stop]) = some (receivedCharacter .even data parityBit stop) ∧
      readCharacter .odd (false :: data.toList ++ [parityBit, stop]) = some (receivedCharacter .odd data parityBit stop) := by
  obtain ⟨⟨l⟩, hl⟩ := data
  match l, hl with
  | [b0, b1, b2, b3, b4, b5, b6, b7], _ => exact ⟨rfl, rfl, rfl⟩

/-- A sync pattern has 16 bits. -/
@[simp] theorem length_patternOnLine (pattern : Nat) : (patternOnLine pattern).length = 16 := by
  simp [patternOnLine, highFirst, octetOnLine]

/-- The bits of a sync pattern (R60). -/
theorem patternOnLine_eq (pattern : Nat) :
    patternOnLine pattern = (List.range 16).map (fun k => pattern.testBit (15 - k)) := by
  have shift : ∀ k, (pattern / 256).testBit k = pattern.testBit (k + 8) := fun k => by
    rw [show (256 : Nat) = 2 ^ 8 from rfl, ← Nat.shiftRight_eq_div_pow, Nat.testBit_shiftRight, Nat.add_comm]
  simp [patternOnLine, highFirst, octetOnLine, octet, List.range_succ, BitVec.getLsbD_ofNat, shift, -Nat.testBit_zero]

/-- What the search finds (R81): it ends at the first place at which the last 16 bits are the pattern. -/
theorem seekPattern_eq_some (pattern : Nat) (received bits rest : List Bool) :
    seekPattern pattern received bits = some rest ↔
      ∃ front, bits = front ++ rest ∧ front ≠ [] ∧ lastSixteen (received ++ front) = patternOnLine pattern ∧
        ∀ early, early <+: front → early ≠ [] → early ≠ front → lastSixteen (received ++ early) ≠ patternOnLine pattern := by
  induction bits generalizing received with
  | nil =>
    simp only [seekPattern, reduceCtorEq, false_iff]
    rintro ⟨front, h, hne, -⟩
    have := (List.append_eq_nil_iff.mp h.symm).1
    exact hne this
  | cons b bs ih =>
    unfold seekPattern
    split
    · rename_i hm
      constructor
      · rintro h
        obtain rfl := Option.some.inj h
        refine ⟨[b], rfl, by simp, hm, ?_⟩
        intro early hp hne hne'
        rcases List.prefix_cons_iff.mp hp with rfl | ⟨t, rfl, ht⟩
        · exact absurd rfl hne
        · simp_all
      · rintro ⟨front, h, hne, -, hearly⟩
        cases front with
        | nil => exact absurd rfl hne
        | cons c fs =>
          simp only [List.cons_append, List.cons.injEq] at h
          obtain ⟨rfl, rfl⟩ := h
          by_cases hfs : fs = []
          · simp [hfs]
          · exact absurd hm (hearly [b] (by simp) (by simp) (by simpa using Ne.symm hfs))
    · rename_i hm
      rw [ih]
      constructor
      · rintro ⟨front, rfl, hne, hlast, hearly⟩
        refine ⟨b :: front, rfl, by simp, by simpa using hlast, ?_⟩
        intro early hp hne1 hne2
        rcases List.prefix_cons_iff.mp hp with rfl | ⟨t, rfl, ht⟩
        · exact absurd rfl hne1
        · by_cases h0 : t = []
          · simpa [h0] using hm
          · simpa using hearly t ht h0 (by simpa using hne2)
      · rintro ⟨front, h, hne, hlast, hearly⟩
        cases front with
        | nil => exact absurd rfl hne
        | cons c fs =>
          simp only [List.cons_append, List.cons.injEq] at h
          obtain ⟨rfl, rfl⟩ := h
          have hfs : fs ≠ [] := by rintro rfl; exact hm (by simpa using hlast)
          refine ⟨fs, rfl, hfs, by simpa using hlast, ?_⟩
          intro early hp hne1 hne2
          simpa using hearly (b :: early) (by simpa using hp) (by simp) (by simpa using hne2)

/-- The search finds the pattern with the last of these bits (R81): the last 16 are the pattern, and no 16 before them are. -/
theorem seekPattern_finds_at_end (pattern : Nat) (bits : List Bool) :
    seekPattern pattern [] bits = some [] ↔
      bits.drop (bits.length - 16) = patternOnLine pattern ∧
        ∀ k, k + 16 < bits.length → (bits.drop k).take 16 ≠ patternOnLine pattern := by
  rw [seekPattern_eq_some]
  constructor
  · rintro ⟨front, h, -, hlast, hearly⟩
    obtain rfl : bits = front := by simpa using h
    refine ⟨by simpa [lastSixteen] using hlast, fun k hk => ?_⟩
    have he := hearly (bits.take (k + 16)) (List.take_prefix ..) (by
      intro h0
      have := congrArg List.length h0
      simp only [List.length_take, List.length_nil] at this
      omega) (by
      intro h0
      have := congrArg List.length h0
      simp only [List.length_take] at this
      omega)
    have hl : (bits.take (k + 16)).length = k + 16 := by simp only [List.length_take]; omega
    simpa [lastSixteen, hl, List.drop_take] using he
  · rintro ⟨hlast, hearly⟩
    have hlen : 16 ≤ bits.length := by
      have := congrArg List.length hlast
      simp only [List.length_drop, length_patternOnLine] at this
      omega
    refine ⟨bits, by simp, by rintro rfl; simp at hlen, by simpa [lastSixteen] using hlast, ?_⟩
    intro early hp hne hne' hm
    have hm' : early.drop (early.length - 16) = patternOnLine pattern := by simpa [lastSixteen] using hm
    have h16 : 16 ≤ early.length := by
      have := congrArg List.length hm'
      simp only [List.length_drop, length_patternOnLine] at this
      omega
    have hlt : early.length < bits.length := by
      rcases Nat.lt_or_ge early.length bits.length with h | h
      · exact h
      · exact absurd (hp.eq_of_length_le h) hne'
    refine hearly (early.length - 16) (by omega) ?_
    rw [List.prefix_iff_eq_take.mp hp] at hm'
    rw [List.drop_take] at hm'
    have e : (bits.take early.length).length = early.length := by simp only [List.length_take]; omega
    rw [e] at hm'
    rw [show early.length - (early.length - 16) = 16 by omega] at hm'
    exact hm'

end Sys2Proof.Machine
end

