-- ==== Sys2Proof/Laws/Table.lean ====
section
/-! SUPPORT. The laws of sparse tables: read after write, canonical form, the lowest free key. -/

namespace Sys2Proof.Machine

variable {α : Type}

@[simp] theorem Table.get_nil (k : Nat) : Table.get ([] : List (Nat × α)) k = none := rfl

@[simp] theorem Table.wf_nil : Table.wf ([] : List (Nat × α)) := List.Pairwise.nil

/-- A key below every key of a table is not listed in it. -/
theorem Table.get_eq_none_of_lt {t : List (Nat × α)} {k : Nat} (h : ∀ p ∈ t, k < p.1) : Table.get t k = none := by
  induction t with
  | nil => rfl
  | cons p rest ih =>
    obtain ⟨j, v⟩ := p
    have hj : k < j := h _ (List.mem_cons_self ..)
    simp [Table.get, Nat.ne_of_gt hj, ih fun q hq => h q (List.mem_cons_of_mem _ hq)]

/-- What is listed under a key stands in the table with it. -/
theorem Table.mem_of_get {t : List (Nat × α)} {k : Nat} {v : α} (h : Table.get t k = some v) : (k, v) ∈ t := by
  induction t with
  | nil => cases h
  | cons p rest ih =>
    obtain ⟨j, w⟩ := p
    simp only [Table.get] at h
    split at h
    · cases h; subst_vars; exact List.mem_cons_self ..
    · exact List.mem_cons_of_mem _ (ih h)

/-- In a canonical table every entry is what its key reads. -/
theorem Table.get_of_mem {t : List (Nat × α)} {k : Nat} {v : α} (hw : Table.wf t) (h : (k, v) ∈ t) :
    Table.get t k = some v := by
  induction t with
  | nil => cases h
  | cons p rest ih =>
    obtain ⟨j, w⟩ := p
    obtain ⟨hp, hr⟩ := List.pairwise_cons.mp hw
    rcases List.mem_cons.mp h with heq | hmem
    · cases heq; simp [Table.get]
    · have := hp _ hmem
      simp only [Table.get]
      rw [if_neg (by simp only at this; omega)]
      exact ih hr hmem

/-- A key is listed when some entry of the table has it. -/
theorem Table.get_isSome_iff {t : List (Nat × α)} {k : Nat} : (Table.get t k).isSome = true ↔ k ∈ t.map Prod.fst := by
  induction t with
  | nil => simp
  | cons p rest ih =>
    obtain ⟨j, w⟩ := p
    simp only [Table.get, List.map_cons, List.mem_cons]
    split
    · simp_all
    · rename_i h; rw [ih]; simp [Ne.symm h]

@[simp] theorem Table.get_put_self (t : List (Nat × α)) (k : Nat) (v : α) : Table.get (Table.put t k v) k = some v := by
  induction t with
  | nil => simp [Table.put, Table.get]
  | cons p rest ih =>
    obtain ⟨j, w⟩ := p
    simp only [Table.put]
    split
    · simp [Table.get]
    · split
      · simp [Table.get]
      · simp_all [Table.get, eq_comm]

theorem Table.get_put_of_ne (t : List (Nat × α)) {k j : Nat} (v : α) (h : j ≠ k) :
    Table.get (Table.put t k v) j = Table.get t j := by
  induction t with
  | nil => simp [Table.put, Table.get, Ne.symm h]
  | cons p rest ih =>
    obtain ⟨i, w⟩ := p
    simp only [Table.put]
    split
    · simp [Table.get, Ne.symm h]
    · split
      · subst_vars; simp [Table.get, Ne.symm h]
      · simp [Table.get, ih]

@[simp] theorem Table.get_del_self (t : List (Nat × α)) (k : Nat) : Table.get (Table.del t k) k = none := by
  induction t with
  | nil => rfl
  | cons p rest ih =>
    obtain ⟨j, w⟩ := p
    simp only [Table.del]
    split
    · exact ih
    · simp_all [Table.get]

theorem Table.get_del_of_ne (t : List (Nat × α)) {k j : Nat} (h : j ≠ k) : Table.get (Table.del t k) j = Table.get t j := by
  induction t with
  | nil => rfl
  | cons p rest ih =>
    obtain ⟨i, w⟩ := p
    simp only [Table.del]
    split
    · subst_vars; simp [Table.get, Ne.symm h, ih]
    · simp [Table.get, ih]

/-- What stands in a table after a write: the written pair and entries of the table. -/
theorem Table.mem_put {t : List (Nat × α)} {k : Nat} {v : α} {p : Nat × α} (h : p ∈ Table.put t k v) :
    p = (k, v) ∨ p ∈ t := by
  induction t with
  | nil => simpa [Table.put] using h
  | cons q rest ih =>
    obtain ⟨j, w⟩ := q
    simp only [Table.put] at h
    split at h
    · simpa using h
    · split at h
      · rcases List.mem_cons.mp h with h | h
        · exact .inl h
        · exact .inr (List.mem_cons_of_mem _ h)
      · rcases List.mem_cons.mp h with h | h
        · exact .inr (h ▸ List.mem_cons_self ..)
        · exact (ih h).imp_right (List.mem_cons_of_mem _)

/-- What stands in a table after a removal stood in it before. -/
theorem Table.mem_del {t : List (Nat × α)} {k : Nat} {p : Nat × α} (h : p ∈ Table.del t k) : p ∈ t := by
  induction t with
  | nil => exact h
  | cons q rest ih =>
    obtain ⟨j, w⟩ := q
    simp only [Table.del] at h
    split at h
    · exact List.mem_cons_of_mem _ (ih h)
    · rcases List.mem_cons.mp h with h | h
      · exact h ▸ List.mem_cons_self ..
      · exact List.mem_cons_of_mem _ (ih h)

theorem Table.wf_put {t : List (Nat × α)} (k : Nat) (v : α) (h : Table.wf t) : Table.wf (Table.put t k v) := by
  induction t with
  | nil => simp [Table.put]
  | cons p rest ih =>
    obtain ⟨j, w⟩ := p
    obtain ⟨hp, hr⟩ := List.pairwise_cons.mp h
    simp only [Table.put]
    split
    · rename_i hk
      refine List.pairwise_cons.mpr ⟨fun q hq => ?_, h⟩
      rcases List.mem_cons.mp hq with hq | hq
      · subst hq; exact hk
      · exact Nat.lt_trans hk (hp q hq)
    · split
      · subst_vars; exact List.pairwise_cons.mpr ⟨hp, hr⟩
      · refine List.pairwise_cons.mpr ⟨fun q hq => ?_, ih hr⟩
        rcases Table.mem_put hq with hq | hq
        · subst hq; simp only; omega
        · exact hp q hq

theorem Table.wf_del {t : List (Nat × α)} (k : Nat) (h : Table.wf t) : Table.wf (Table.del t k) := by
  induction t with
  | nil => exact h
  | cons p rest ih =>
    obtain ⟨j, w⟩ := p
    obtain ⟨hp, hr⟩ := List.pairwise_cons.mp h
    simp only [Table.del]
    split
    · exact ih hr
    · exact List.pairwise_cons.mpr ⟨fun q hq => hp q (Table.mem_del hq), ih hr⟩

/-- A change of the values that keeps the keys keeps the canonical form. -/
theorem Table.wf_map {t : List (Nat × α)} (f : Nat × α → α) (h : Table.wf t) : Table.wf (t.map fun p => (p.1, f p)) :=
  List.pairwise_map.mpr h

/-- Reading after a change of the values. -/
theorem Table.get_map (t : List (Nat × α)) (f : α → α) (k : Nat) :
    Table.get (t.map fun p => (p.1, f p.2)) k = (Table.get t k).map f := by
  induction t with
  | nil => rfl
  | cons p rest ih =>
    obtain ⟨j, w⟩ := p
    simp only [List.map_cons, Table.get]
    split <;> simp_all

/-- The lowest free key is free, is below the size, and has no free key below it (R15, R30). -/
theorem Table.lowestFree_spec {t : List (Nat × α)} {size k : Nat} (h : Table.lowestFree t size = some k) :
    k < size ∧ Table.get t k = none ∧ ∀ j < k, (Table.get t j).isSome = true := by
  unfold Table.lowestFree at h
  rw [List.find?_range_eq_some] at h
  obtain ⟨hk, hlt, hb⟩ := h
  exact ⟨List.mem_range.mp hlt, by simpa using hk, fun j hj => by simpa [Option.isSome_iff_ne_none] using hb j hj⟩

/-- A second write under a key overrides the first. -/
theorem Table.put_put (t : List (Nat × α)) (k : Nat) (v w : α) : Table.put (Table.put t k v) k w = Table.put t k w := by
  induction t with
  | nil => simp [Table.put]
  | cons p rest ih =>
    obtain ⟨j, x⟩ := p
    by_cases h1 : k < j
    · simp [Table.put, h1]
    · by_cases h2 : k = j
      · simp [Table.put, h2]
      · simp [Table.put, h1, h2, ih]

end Sys2Proof.Machine
end

