-- ==== Sys2Proof/Laws/Memory.lean ====
section
/-! SUPPORT. The octets of the Cell Store: read after write, and the canonical form that every write keeps. -/

namespace Sys2Proof.Machine

@[simp] theorem readOctet_writeOctet_self (m : List Host.Cell) (a : Nat) (b : Byte) : readOctet (writeOctet m a b) a = b := by
  unfold readOctet writeOctet
  split <;> simp_all

theorem readOctet_writeOctet_of_ne (m : List Host.Cell) {a x : Nat} (b : Byte) (h : x ≠ a) :
    readOctet (writeOctet m a b) x = readOctet m x := by
  unfold readOctet writeOctet
  split
  · rw [Table.get_del_of_ne _ h]
  · rw [Table.get_put_of_ne _ _ h]

/-- A write keeps the canonical form. -/
theorem memoryWf_writeOctet {m : List Host.Cell} (a : Nat) (b : Byte) (h : Memory.wf m) : Memory.wf (writeOctet m a b) := by
  unfold writeOctet
  split
  · exact ⟨Table.wf_del a h.1, fun c hc => h.2 c (Table.mem_del hc)⟩
  · refine ⟨Table.wf_put a b h.1, fun c hc => ?_⟩
    rcases Table.mem_put hc with rfl | hc
    · assumption
    · exact h.2 c hc

/-- The octets after either reset that clears them are in canonical form. -/
theorem memoryWf_reset : Memory.wf State.reset.store.octets := ⟨List.Pairwise.nil, by simp [State.reset, State.powerOn, Store.reset]⟩

/-- Positions of different cells, or different positions of one cell, have different addresses (R1). -/
theorem cellAddress_inj {c p d q : Nat} (hp : p < 32) (hq : q < 32) (h : cellAddress c p = cellAddress d q) : c = d ∧ p = q := by
  simp only [cellAddress, Config.cellOctets] at h
  omega

end Sys2Proof.Machine
end

