-- ==== Sys2Proof/Laws/State.lean ====
section
/-! SUPPORT. What each update of the state leaves in each field. -/

namespace Sys2Proof.Machine

/-! ## A line -/

@[simp] theorem State.line_modLine_self (s : State) (n : LineNo) (f : Line → Line) : (s.modLine n f).line n = f (s.line n) := by
  simp [State.line, State.modLine]

theorem State.line_modLine_of_ne (s : State) {n m : LineNo} (f : Line → Line) (h : m ≠ n) :
    (s.modLine n f).line m = s.line m := by
  have : n.val ≠ m.val := fun e => h (Fin.ext e.symm)
  simp [State.line, State.modLine, this]

/-- Reading any line after a change of one. -/
theorem State.line_modLine (s : State) (n m : LineNo) (f : Line → Line) :
    (s.modLine n f).line m = if m = n then f (s.line n) else s.line m := by
  split
  · subst_vars; simp
  · exact s.line_modLine_of_ne f ‹_›

/-- Two changes of one line are one. -/
theorem State.modLine_modLine (s : State) (n : LineNo) (f g : Line → Line) :
    (s.modLine n f).modLine n g = s.modLine n (fun l => g (f l)) := by
  simp [State.modLine, State.line]

/-- A change that changes nothing. -/
theorem State.modLine_of_eq (s : State) (n : LineNo) (f : Line → Line) (h : f (s.line n) = s.line n) : s.modLine n f = s := by
  simp only [State.modLine, h]
  cases s
  simp [State.line]

theorem State.line_of_lines_eq {s t : State} (h : t.lines = s.lines) (n : LineNo) : t.line n = s.line n := by
  simp [State.line, h]

/-! ## A frame record -/

@[simp] theorem State.frame_putFrame_self (s : State) (i : Nat) (r : FrameRecord) : (s.putFrame i r).frame i = some r := by
  simp [State.frame, State.putFrame]

theorem State.frame_putFrame_of_ne (s : State) {i j : Nat} (r : FrameRecord) (h : j ≠ i) :
    (s.putFrame i r).frame j = s.frame j := by
  simp [State.frame, State.putFrame, Table.get_put_of_ne _ _ h]

@[simp] theorem State.frame_modFrame_self (s : State) (i : Nat) (f : FrameRecord → FrameRecord) :
    (s.modFrame i f).frame i = (s.frame i).map f := by
  unfold State.modFrame
  split <;> simp_all

theorem State.frame_modFrame_of_ne (s : State) {i j : Nat} (f : FrameRecord → FrameRecord) (h : j ≠ i) :
    (s.modFrame i f).frame j = s.frame j := by
  unfold State.modFrame
  split
  · rfl
  · exact s.frame_putFrame_of_ne _ h

@[simp] theorem State.frame_modLine (s : State) (n : LineNo) (f : Line → Line) (i : Nat) :
    (s.modLine n f).frame i = s.frame i := rfl

@[simp] theorem State.frame_modLink (s : State) (f : HostLink → HostLink) (i : Nat) : (s.modLink f).frame i = s.frame i := rfl

@[simp] theorem State.line_modLink (s : State) (f : HostLink → HostLink) (n : LineNo) : (s.modLink f).line n = s.line n := rfl

@[simp] theorem State.line_putFrame (s : State) (i : Nat) (r : FrameRecord) (n : LineNo) : (s.putFrame i r).line n = s.line n := rfl

@[simp] theorem State.line_modFrame (s : State) (i : Nat) (f : FrameRecord → FrameRecord) (n : LineNo) :
    (s.modFrame i f).line n = s.line n := by
  unfold State.modFrame; split <;> rfl

@[simp] theorem State.line_joinReply (s : State) (r : Reply) (n : LineNo) : (joinReply r s).line n = s.line n := rfl

@[simp] theorem State.frame_joinReply (s : State) (r : Reply) (i : Nat) : (joinReply r s).frame i = s.frame i := rfl

@[simp] theorem State.line_endExecution (s : State) (n : LineNo) : (endExecution s).line n = s.line n := rfl

@[simp] theorem State.frame_endExecution (s : State) (i : Nat) : (endExecution s).frame i = s.frame i := rfl

@[simp] theorem joinReply_replies (s : State) (r : Reply) :
    (joinReply r s).replies = s.replies ++ [{ reply := r, carriedBy := none }] := rfl

@[simp] theorem endExecution_inbound (s : State) : (endExecution s).link.inbound = s.link.inbound.tail := rfl

@[simp] theorem endExecution_headStalled (s : State) : (endExecution s).link.headStalled = false := rfl

@[simp] theorem putFrame_freeCells (s : State) (i : Nat) (r : FrameRecord) :
    (s.putFrame i r).store.freeCells = s.store.freeCells := rfl

@[simp] theorem putFrame_octets (s : State) (i : Nat) (r : FrameRecord) : (s.putFrame i r).store.octets = s.store.octets := rfl

@[simp] theorem writeCell_freeCells (s : State) (c p : Nat) (b : Byte) :
    (s.writeCell c p b).store.freeCells = s.store.freeCells := rfl

@[simp] theorem writeCell_frames (s : State) (c p : Nat) (b : Byte) : (s.writeCell c p b).store.frames = s.store.frames := rfl

@[simp] theorem modFrame_freeCells (s : State) (i : Nat) (f : FrameRecord → FrameRecord) :
    (s.modFrame i f).store.freeCells = s.store.freeCells := by
  unfold State.modFrame; split <;> rfl

@[simp] theorem modFrame_octets (s : State) (i : Nat) (f : FrameRecord → FrameRecord) :
    (s.modFrame i f).store.octets = s.store.octets := by
  unfold State.modFrame; split <;> rfl

/-! ## A receiver -/

@[simp] theorem Receiver.enter_state (r : Receiver) (x : RxState) : (r.enter x).state = x := rfl

@[simp] theorem Receiver.enter_current (r : Receiver) (x : RxState) : (r.enter x).current = r.current := rfl

@[simp] theorem Receiver.enter_queue (r : Receiver) (x : RxState) : (r.enter x).queue = r.queue := rfl

@[simp] theorem Receiver.enter_character (r : Receiver) (x : RxState) :
    (r.enter x).character = if x.abandons then .waiting else r.character := rfl

@[simp] theorem Line.readTo_state (p : CharacterPhase) (l : Line) : (l.readTo p).state = l.state := rfl

@[simp] theorem Line.readTo_config (p : CharacterPhase) (l : Line) : (l.readTo p).config = l.config := rfl

@[simp] theorem Line.readTo_tx (p : CharacterPhase) (l : Line) : (l.readTo p).tx = l.tx := rfl

@[simp] theorem Line.readTo_rx (p : CharacterPhase) (l : Line) : (l.readTo p).rx = { l.rx with character := p } := rfl

@[simp] theorem Line.readTo_group (p : CharacterPhase) (l : Line) : (l.readTo p).group = l.group := rfl

@[simp] theorem Line.readTo_close (p : CharacterPhase) (l : Line) : (l.readTo p).close = l.close := rfl

@[simp] theorem Line.readTo_counters (p : CharacterPhase) (l : Line) : (l.readTo p).counters = l.counters := rfl

/-! ## modLine -/

@[simp] theorem modLine_store (s : State) (n : LineNo) (f : Line → Line) : (s.modLine n f).store = s.store := rfl

@[simp] theorem modLine_tags (s : State) (n : LineNo) (f : Line → Line) : (s.modLine n f).tags = s.tags := rfl

@[simp] theorem modLine_rejects (s : State) (n : LineNo) (f : Line → Line) : (s.modLine n f).rejects = s.rejects := rfl

@[simp] theorem modLine_completion (s : State) (n : LineNo) (f : Line → Line) : (s.modLine n f).completion = s.completion := rfl

@[simp] theorem modLine_replies (s : State) (n : LineNo) (f : Line → Line) : (s.modLine n f).replies = s.replies := rfl

@[simp] theorem modLine_reserveFloor (s : State) (n : LineNo) (f : Line → Line) : (s.modLine n f).reserveFloor = s.reserveFloor := rfl

@[simp] theorem modLine_recordReserve (s : State) (n : LineNo) (f : Line → Line) : (s.modLine n f).recordReserve = s.recordReserve := rfl

@[simp] theorem modLine_straySegments (s : State) (n : LineNo) (f : Line → Line) : (s.modLine n f).straySegments = s.straySegments := rfl

@[simp] theorem modLine_pointer (s : State) (n : LineNo) (f : Line → Line) : (s.modLine n f).pointer = s.pointer := rfl

@[simp] theorem modLine_turnCount (s : State) (n : LineNo) (f : Line → Line) : (s.modLine n f).turnCount = s.turnCount := rfl

@[simp] theorem modLine_link (s : State) (n : LineNo) (f : Line → Line) : (s.modLine n f).link = s.link := rfl

@[simp] theorem modLine_rstLow (s : State) (n : LineNo) (f : Line → Line) : (s.modLine n f).rstLow = s.rstLow := rfl

@[simp] theorem modLine_pending (s : State) (n : LineNo) (f : Line → Line) : (s.modLine n f).pending = s.pending := rfl

/-! ## putFrame -/

@[simp] theorem putFrame_lines (s : State) (i : Nat) (r : FrameRecord) : (s.putFrame i r).lines = s.lines := rfl

@[simp] theorem putFrame_tags (s : State) (i : Nat) (r : FrameRecord) : (s.putFrame i r).tags = s.tags := rfl

@[simp] theorem putFrame_rejects (s : State) (i : Nat) (r : FrameRecord) : (s.putFrame i r).rejects = s.rejects := rfl

@[simp] theorem putFrame_completion (s : State) (i : Nat) (r : FrameRecord) : (s.putFrame i r).completion = s.completion := rfl

@[simp] theorem putFrame_replies (s : State) (i : Nat) (r : FrameRecord) : (s.putFrame i r).replies = s.replies := rfl

@[simp] theorem putFrame_reserveFloor (s : State) (i : Nat) (r : FrameRecord) : (s.putFrame i r).reserveFloor = s.reserveFloor := rfl

@[simp] theorem putFrame_recordReserve (s : State) (i : Nat) (r : FrameRecord) : (s.putFrame i r).recordReserve = s.recordReserve := rfl

@[simp] theorem putFrame_straySegments (s : State) (i : Nat) (r : FrameRecord) : (s.putFrame i r).straySegments = s.straySegments := rfl

@[simp] theorem putFrame_pointer (s : State) (i : Nat) (r : FrameRecord) : (s.putFrame i r).pointer = s.pointer := rfl

@[simp] theorem putFrame_turnCount (s : State) (i : Nat) (r : FrameRecord) : (s.putFrame i r).turnCount = s.turnCount := rfl

@[simp] theorem putFrame_link (s : State) (i : Nat) (r : FrameRecord) : (s.putFrame i r).link = s.link := rfl

@[simp] theorem putFrame_rstLow (s : State) (i : Nat) (r : FrameRecord) : (s.putFrame i r).rstLow = s.rstLow := rfl

@[simp] theorem putFrame_pending (s : State) (i : Nat) (r : FrameRecord) : (s.putFrame i r).pending = s.pending := rfl

/-! ## modFrame -/

@[simp] theorem modFrame_lines (s : State) (i : Nat) (f : FrameRecord → FrameRecord) : (s.modFrame i f).lines = s.lines := by
  unfold State.modFrame; split <;> rfl

@[simp] theorem modFrame_tags (s : State) (i : Nat) (f : FrameRecord → FrameRecord) : (s.modFrame i f).tags = s.tags := by
  unfold State.modFrame; split <;> rfl

@[simp] theorem modFrame_rejects (s : State) (i : Nat) (f : FrameRecord → FrameRecord) : (s.modFrame i f).rejects = s.rejects := by
  unfold State.modFrame; split <;> rfl

@[simp] theorem modFrame_completion (s : State) (i : Nat) (f : FrameRecord → FrameRecord) : (s.modFrame i f).completion = s.completion := by
  unfold State.modFrame; split <;> rfl

@[simp] theorem modFrame_replies (s : State) (i : Nat) (f : FrameRecord → FrameRecord) : (s.modFrame i f).replies = s.replies := by
  unfold State.modFrame; split <;> rfl

@[simp] theorem modFrame_reserveFloor (s : State) (i : Nat) (f : FrameRecord → FrameRecord) : (s.modFrame i f).reserveFloor = s.reserveFloor := by
  unfold State.modFrame; split <;> rfl

@[simp] theorem modFrame_recordReserve (s : State) (i : Nat) (f : FrameRecord → FrameRecord) : (s.modFrame i f).recordReserve = s.recordReserve := by
  unfold State.modFrame; split <;> rfl

@[simp] theorem modFrame_straySegments (s : State) (i : Nat) (f : FrameRecord → FrameRecord) : (s.modFrame i f).straySegments = s.straySegments := by
  unfold State.modFrame; split <;> rfl

@[simp] theorem modFrame_pointer (s : State) (i : Nat) (f : FrameRecord → FrameRecord) : (s.modFrame i f).pointer = s.pointer := by
  unfold State.modFrame; split <;> rfl

@[simp] theorem modFrame_turnCount (s : State) (i : Nat) (f : FrameRecord → FrameRecord) : (s.modFrame i f).turnCount = s.turnCount := by
  unfold State.modFrame; split <;> rfl

@[simp] theorem modFrame_link (s : State) (i : Nat) (f : FrameRecord → FrameRecord) : (s.modFrame i f).link = s.link := by
  unfold State.modFrame; split <;> rfl

@[simp] theorem modFrame_rstLow (s : State) (i : Nat) (f : FrameRecord → FrameRecord) : (s.modFrame i f).rstLow = s.rstLow := by
  unfold State.modFrame; split <;> rfl

@[simp] theorem modFrame_pending (s : State) (i : Nat) (f : FrameRecord → FrameRecord) : (s.modFrame i f).pending = s.pending := by
  unfold State.modFrame; split <;> rfl

/-! ## modLink -/

@[simp] theorem modLink_lines (s : State) (f : HostLink → HostLink) : (s.modLink f).lines = s.lines := rfl

@[simp] theorem modLink_store (s : State) (f : HostLink → HostLink) : (s.modLink f).store = s.store := rfl

@[simp] theorem modLink_tags (s : State) (f : HostLink → HostLink) : (s.modLink f).tags = s.tags := rfl

@[simp] theorem modLink_rejects (s : State) (f : HostLink → HostLink) : (s.modLink f).rejects = s.rejects := rfl

@[simp] theorem modLink_completion (s : State) (f : HostLink → HostLink) : (s.modLink f).completion = s.completion := rfl

@[simp] theorem modLink_replies (s : State) (f : HostLink → HostLink) : (s.modLink f).replies = s.replies := rfl

@[simp] theorem modLink_reserveFloor (s : State) (f : HostLink → HostLink) : (s.modLink f).reserveFloor = s.reserveFloor := rfl

@[simp] theorem modLink_recordReserve (s : State) (f : HostLink → HostLink) : (s.modLink f).recordReserve = s.recordReserve := rfl

@[simp] theorem modLink_straySegments (s : State) (f : HostLink → HostLink) : (s.modLink f).straySegments = s.straySegments := rfl

@[simp] theorem modLink_pointer (s : State) (f : HostLink → HostLink) : (s.modLink f).pointer = s.pointer := rfl

@[simp] theorem modLink_turnCount (s : State) (f : HostLink → HostLink) : (s.modLink f).turnCount = s.turnCount := rfl

@[simp] theorem modLink_rstLow (s : State) (f : HostLink → HostLink) : (s.modLink f).rstLow = s.rstLow := rfl

@[simp] theorem modLink_pending (s : State) (f : HostLink → HostLink) : (s.modLink f).pending = s.pending := rfl

/-! ## writeCell -/

@[simp] theorem writeCell_lines (s : State) (c p : Nat) (b : Byte) : (s.writeCell c p b).lines = s.lines := rfl

@[simp] theorem writeCell_tags (s : State) (c p : Nat) (b : Byte) : (s.writeCell c p b).tags = s.tags := rfl

@[simp] theorem writeCell_rejects (s : State) (c p : Nat) (b : Byte) : (s.writeCell c p b).rejects = s.rejects := rfl

@[simp] theorem writeCell_completion (s : State) (c p : Nat) (b : Byte) : (s.writeCell c p b).completion = s.completion := rfl

@[simp] theorem writeCell_replies (s : State) (c p : Nat) (b : Byte) : (s.writeCell c p b).replies = s.replies := rfl

@[simp] theorem writeCell_reserveFloor (s : State) (c p : Nat) (b : Byte) : (s.writeCell c p b).reserveFloor = s.reserveFloor := rfl

@[simp] theorem writeCell_recordReserve (s : State) (c p : Nat) (b : Byte) : (s.writeCell c p b).recordReserve = s.recordReserve := rfl

@[simp] theorem writeCell_straySegments (s : State) (c p : Nat) (b : Byte) : (s.writeCell c p b).straySegments = s.straySegments := rfl

@[simp] theorem writeCell_pointer (s : State) (c p : Nat) (b : Byte) : (s.writeCell c p b).pointer = s.pointer := rfl

@[simp] theorem writeCell_turnCount (s : State) (c p : Nat) (b : Byte) : (s.writeCell c p b).turnCount = s.turnCount := rfl

@[simp] theorem writeCell_link (s : State) (c p : Nat) (b : Byte) : (s.writeCell c p b).link = s.link := rfl

@[simp] theorem writeCell_rstLow (s : State) (c p : Nat) (b : Byte) : (s.writeCell c p b).rstLow = s.rstLow := rfl

@[simp] theorem writeCell_pending (s : State) (c p : Nat) (b : Byte) : (s.writeCell c p b).pending = s.pending := rfl

/-! ## joinReply -/

@[simp] theorem joinReply_lines (s : State) (r : Reply) : (joinReply r s).lines = s.lines := rfl

@[simp] theorem joinReply_store (s : State) (r : Reply) : (joinReply r s).store = s.store := rfl

@[simp] theorem joinReply_tags (s : State) (r : Reply) : (joinReply r s).tags = s.tags := rfl

@[simp] theorem joinReply_rejects (s : State) (r : Reply) : (joinReply r s).rejects = s.rejects := rfl

@[simp] theorem joinReply_completion (s : State) (r : Reply) : (joinReply r s).completion = s.completion := rfl

@[simp] theorem joinReply_reserveFloor (s : State) (r : Reply) : (joinReply r s).reserveFloor = s.reserveFloor := rfl

@[simp] theorem joinReply_recordReserve (s : State) (r : Reply) : (joinReply r s).recordReserve = s.recordReserve := rfl

@[simp] theorem joinReply_straySegments (s : State) (r : Reply) : (joinReply r s).straySegments = s.straySegments := rfl

@[simp] theorem joinReply_pointer (s : State) (r : Reply) : (joinReply r s).pointer = s.pointer := rfl

@[simp] theorem joinReply_turnCount (s : State) (r : Reply) : (joinReply r s).turnCount = s.turnCount := rfl

@[simp] theorem joinReply_link (s : State) (r : Reply) : (joinReply r s).link = s.link := rfl

@[simp] theorem joinReply_rstLow (s : State) (r : Reply) : (joinReply r s).rstLow = s.rstLow := rfl

@[simp] theorem joinReply_pending (s : State) (r : Reply) : (joinReply r s).pending = s.pending := rfl

/-! ## endExecution -/

@[simp] theorem endExecution_lines (s : State) : (endExecution s).lines = s.lines := rfl

@[simp] theorem endExecution_store (s : State) : (endExecution s).store = s.store := rfl

@[simp] theorem endExecution_tags (s : State) : (endExecution s).tags = s.tags := rfl

@[simp] theorem endExecution_rejects (s : State) : (endExecution s).rejects = s.rejects := rfl

@[simp] theorem endExecution_completion (s : State) : (endExecution s).completion = s.completion := rfl

@[simp] theorem endExecution_replies (s : State) : (endExecution s).replies = s.replies := rfl

@[simp] theorem endExecution_reserveFloor (s : State) : (endExecution s).reserveFloor = s.reserveFloor := rfl

@[simp] theorem endExecution_recordReserve (s : State) : (endExecution s).recordReserve = s.recordReserve := rfl

@[simp] theorem endExecution_straySegments (s : State) : (endExecution s).straySegments = s.straySegments := rfl

@[simp] theorem endExecution_pointer (s : State) : (endExecution s).pointer = s.pointer := rfl

@[simp] theorem endExecution_turnCount (s : State) : (endExecution s).turnCount = s.turnCount := rfl

@[simp] theorem endExecution_rstLow (s : State) : (endExecution s).rstLow = s.rstLow := rfl

@[simp] theorem endExecution_pending (s : State) : (endExecution s).pending = s.pending := rfl

/-! ## Two changes of one frame record -/

/-- A second write of a frame record overrides the first. -/
@[simp] theorem State.putFrame_putFrame (s : State) (i : Nat) (r q : FrameRecord) :
    (s.putFrame i r).putFrame i q = s.putFrame i q := by
  simp [State.putFrame, Table.put_put]

/-- A change of a frame record is a write where it is allocated. -/
theorem State.modFrame_of_frame {s : State} {i : Nat} {r : FrameRecord} (h : s.frame i = some r)
    (f : FrameRecord → FrameRecord) : s.modFrame i f = s.putFrame i (f r) := by
  simp [State.modFrame, h]

/-- Changes of a line and of a frame record commute. -/
theorem State.putFrame_modLine (s : State) (n : LineNo) (f : Line → Line) (i : Nat) (r : FrameRecord) :
    (s.modLine n f).putFrame i r = (s.putFrame i r).modLine n f := rfl

end Sys2Proof.Machine
end

