-- ==== Sys2Proof/Laws/LineSide.lean ====
section
/-! SUPPORT. Everything that the operations of the store, the Completion List and the Line Engines leave alone: the host link,
the command queue, the device parameters, the reject slots and the round-robin state. -/

namespace Sys2Proof.Machine

theorem LineSide.refl (s : State) : LineSide s s := ⟨rfl, rfl, rfl, rfl, rfl, rfl, rfl, rfl, rfl⟩

theorem LineSide.trans {s t u : State} (h : LineSide s t) (k : LineSide t u) : LineSide s u :=
  ⟨k.link.trans h.link, k.pending.trans h.pending, k.rstLow.trans h.rstLow, k.reserveFloor.trans h.reserveFloor,
    k.recordReserve.trans h.recordReserve, k.rejects.trans h.rejects, k.straySegments.trans h.straySegments,
    k.pointer.trans h.pointer, k.turnCount.trans h.turnCount⟩

/-- A fold of steps that each leave the rest alone leaves the rest alone. -/
theorem LineSide.foldl {β : Type} (f : State → β → State) (h : ∀ s b, LineSide s (f s b)) (bs : List β) (s : State) :
    LineSide s (bs.foldl f s) := by
  induction bs generalizing s with
  | nil => exact .refl s
  | cons b bs ih => exact (h s b).trans (ih (f s b))

/-! ## Ops -/

theorem lineSide_modLine (s : State) (n : LineNo) (f : Line → Line) : LineSide s (s.modLine n f) :=
  ⟨rfl, rfl, rfl, rfl, rfl, rfl, rfl, rfl, rfl⟩

theorem lineSide_putFrame (s : State) (i : Nat) (r : FrameRecord) : LineSide s (s.putFrame i r) :=
  ⟨rfl, rfl, rfl, rfl, rfl, rfl, rfl, rfl, rfl⟩

theorem lineSide_modFrame (s : State) (i : Nat) (f : FrameRecord → FrameRecord) : LineSide s (s.modFrame i f) := by
  constructor <;> simp

theorem lineSide_writeCell (s : State) (c p : Nat) (b : Byte) : LineSide s (s.writeCell c p b) :=
  ⟨rfl, rfl, rfl, rfl, rfl, rfl, rfl, rfl, rfl⟩

theorem lineSide_joinReply (r : Reply) (s : State) : LineSide s (joinReply r s) :=
  ⟨rfl, rfl, rfl, rfl, rfl, rfl, rfl, rfl, rfl⟩

/-- A served claim gives the head cell of the pool and takes it out of the pool, nothing else (R6, R7). -/
theorem claimCell_eq_some {k : CellClaim} {s t : State} {c : Nat} (h : claimCell k s = some (c, t)) :
    s.store.freeCells = c :: t.store.freeCells ∧ t = { s with store := { s.store with freeCells := t.store.freeCells } } := by
  unfold claimCell at h
  split at h
  · cases h
  · rename_i d rest heq
    cases k with
    | receiveData => simp only at h; cases h; exact ⟨heq, rfl⟩
    | transmitData =>
      simp only at h
      split at h
      · cases h; exact ⟨heq, rfl⟩
      · cases h

theorem lineSide_claimCell {k : CellClaim} {s t : State} {c : Nat} (h : claimCell k s = some (c, t)) : LineSide s t := by
  rw [(claimCell_eq_some h).2]
  exact ⟨rfl, rfl, rfl, rfl, rfl, rfl, rfl, rfl, rfl⟩

/-- Everything an append can do (R3): with room in the last cell the octet goes there; otherwise a cell is claimed for it. -/
theorem appendOctet_eq_some {k : CellClaim} {i : Nat} {b : Byte} {s t : State} (h : appendOctet k i b s = some t) :
    ∃ r, s.frame i = some r ∧
      ((∃ c, r.chain.getLast? = some c ∧ c.fill < 32 ∧
          t = (s.writeCell c.cell c.fill b).putFrame i
            { r with chain := r.chain.dropLast ++ [{ c with fill := c.fill + 1 }], stored := r.stored + 1 }) ∨
        ∃ c u, (∀ d, r.chain.getLast? = some d → 32 ≤ d.fill) ∧ claimCell k s = some (c, u) ∧
          t = (u.writeCell c 0 b).putFrame i
            { r with chain := r.chain ++ [{ cell := c, fill := 1 }], stored := r.stored + 1 }) := by
  unfold appendOctet at h
  split at h
  · cases h
  · rename_i r hr
    refine ⟨r, hr, ?_⟩
    split at h
    · rename_i c hc
      cases h
      rw [Option.filter_eq_some_iff] at hc
      exact .inl ⟨c, hc.1, by simpa using hc.2, rfl⟩
    · rename_i hc
      split at h
      · cases h
      · rename_i c u hu
        cases h
        refine .inr ⟨c, u, fun d hd => ?_, hu, rfl⟩
        rw [hd] at hc
        simpa [Option.filter] using hc

theorem lineSide_appendOctet {k : CellClaim} {i : Nat} {b : Byte} {s t : State} (h : appendOctet k i b s = some t) :
    LineSide s t := by
  obtain ⟨r, _, ⟨c, _, _, rfl⟩ | ⟨c, u, _, hu, rfl⟩⟩ := appendOctet_eq_some h
  · exact (lineSide_writeCell ..).trans (lineSide_putFrame ..)
  · exact (lineSide_claimCell hu).trans ((lineSide_writeCell ..).trans (lineSide_putFrame ..))

theorem lineSide_appendOctets (k : CellClaim) (i : Nat) (bs : List Byte) (s : State) :
    LineSide s (appendOctets k i bs s).1 := by
  induction bs generalizing s with
  | nil => exact .refl s
  | cons b bs ih =>
    simp only [appendOctets]
    split
    · exact .refl s
    · exact (lineSide_appendOctet ‹_›).trans (ih _)

theorem lineSide_releaseChain (i : Nat) (s : State) : LineSide s (releaseChain i s) := by
  unfold releaseChain
  split
  · exact .refl s
  · exact ⟨rfl, rfl, rfl, rfl, rfl, rfl, rfl, rfl, rfl⟩

theorem lineSide_trimFrame (i : Nat) (s : State) : LineSide s (trimFrame i s) := by
  unfold trimFrame
  split
  · exact .refl s
  · exact ⟨rfl, rfl, rfl, rfl, rfl, rfl, rfl, rfl, rfl⟩

theorem lineSide_freeFrame (i : Nat) (s : State) : LineSide s (freeFrame i s) :=
  (lineSide_releaseChain i s).trans ⟨rfl, rfl, rfl, rfl, rfl, rfl, rfl, rfl, rfl⟩

/-! ## Completion -/

theorem lineSide_enterDone (how : DoneTally) (i : Nat) (s : State) : LineSide s (enterDone how i s) := by
  unfold enterDone
  split
  · exact .refl s
  · exact ⟨rfl, rfl, rfl, rfl, rfl, rfl, rfl, rfl, rfl⟩

theorem lineSide_enterDiscarding (i : Nat) (s : State) : LineSide s (enterDiscarding i s) := by
  unfold enterDiscarding
  split
  · exact .refl s
  · split
    · exact lineSide_enterDone ..
    · exact lineSide_putFrame ..

theorem lineSide_leaveQueue (i : Nat) (s : State) : LineSide s (leaveQueue i s) := by
  unfold leaveQueue
  split
  · exact .refl s
  · split <;> exact lineSide_modLine ..

theorem lineSide_failFrame (o : FrameOutcome) (i : Nat) (s : State) : LineSide s (failFrame o i s) := by
  unfold failFrame
  split
  · exact .refl s
  · rename_i r _
    have h : LineSide s (releaseChain i (leaveQueue i (s.putFrame i (r.fixOutcome o)))) :=
      (lineSide_putFrame ..).trans ((lineSide_leaveQueue ..).trans (lineSide_releaseChain ..))
    have h2 := h.trans (lineSide_enterDone .completed i _)
    have h3 := h.trans (lineSide_enterDiscarding i _)
    split
    · dsimp only; split <;> assumption
    · dsimp only; split <;> assumption
    · exact lineSide_putFrame ..
    · exact .refl s

theorem lineSide_expireLine (n : LineNo) (s : State) : LineSide s (expireLine n s) := by
  unfold expireLine
  dsimp only
  split
  · exact .refl s
  · exact LineSide.foldl _ (fun t i => lineSide_failFrame .expired i t) _ s

theorem lineSide_flushQueued (i : Nat) (s : State) : LineSide s (flushQueued i s) := by
  unfold flushQueued
  split
  · exact .refl s
  · exact (lineSide_putFrame ..).trans ((lineSide_leaveQueue ..).trans ((lineSide_releaseChain ..).trans (lineSide_enterDone ..)))

theorem lineSide_finishDiscarding (n : LineNo) (s : State) : LineSide s (finishDiscarding n s) :=
  LineSide.foldl _ (fun t i => lineSide_enterDone .flushed i t) _ s

theorem lineSide_flushHandling (n : LineNo) (s : State) : LineSide s (flushHandling n s) := by
  unfold flushHandling
  have h := (LineSide.foldl (fun t i => flushQueued i t) (fun t i => lineSide_flushQueued i t) (s.line n).queued s).trans
    (lineSide_finishDiscarding n _)
  dsimp only
  refine LineSide.trans ?_ (lineSide_modLine ..)
  split
  · exact h
  · exact h.trans (lineSide_failFrame ..)

/-! ## Conditions and receiver -/

theorem lineSide_judgeConditions (n : LineNo) (s : State) : LineSide s (judgeConditions n s) := lineSide_modLine ..

theorem lineSide_countRxError (n : LineNo) (s : State) : LineSide s (countRxError n s) := lineSide_modLine ..

theorem lineSide_countRxFrame (n : LineNo) (s : State) : LineSide s (countRxFrame n s) := lineSide_modLine ..

theorem lineSide_countRxLost (n : LineNo) (s : State) : LineSide s (countRxLost n s) := lineSide_modLine ..

theorem lineSide_loseFrame (n : LineNo) (s : State) : LineSide s (loseFrame n s) :=
  (lineSide_countRxLost n s).trans (lineSide_modLine ..)

theorem lineSide_discardAssembly (n : LineNo) (x : RxState) (s : State) : LineSide s (discardAssembly n x s) := by
  unfold discardAssembly
  split
  · exact lineSide_modLine ..
  · exact (lineSide_freeFrame ..).trans (lineSide_modLine ..)

theorem lineSide_beginFrame (n : LineNo) (len : Nat) (hd : List Byte) (s : State) : LineSide s (beginFrame n len hd s) := by
  unfold beginFrame
  dsimp only
  split
  · exact (lineSide_putFrame ..).trans (lineSide_modLine ..)
  · exact (lineSide_loseFrame ..).trans (lineSide_modLine ..)

theorem lineSide_placeFrame (n : LineNo) (i : Nat) (s : State) : LineSide s (placeFrame n i s) := by
  have hn := lineSide_modLine s n (fun l =>
    { l with rx := { l.rx with nextNumber := (l.rx.nextNumber + 1) % 65536, pendingLoss := false } })
  have ha : ∀ (t : State) (f : FrameRecord → FrameRecord) (g : Line → Line),
      LineSide t (countRxFrame n ((t.modFrame i f).modLine n g)) := fun t f g =>
    (lineSide_modFrame ..).trans ((lineSide_modLine ..).trans (lineSide_countRxFrame ..))
  have hl := hn.trans ((lineSide_freeFrame i _).trans (lineSide_loseFrame n _))
  unfold placeFrame
  dsimp only
  split
  · exact hn.trans (ha ..)
  · split
    · exact hl
    · split
      · exact hl
      · exact hn.trans ((lineSide_freeFrame ..).trans ((lineSide_modLine ..).trans ((ha ..).trans (lineSide_countRxLost ..))))

theorem lineSide_disposeFrame (n : LineNo) (i : Nat) (o : FrameOutcome) (trim : Bool) (s : State) :
    LineSide s (disposeFrame n i o trim s) := by
  unfold disposeFrame
  split
  · dsimp only
    refine (lineSide_modFrame s i (fun r => r.fixOutcome o)).trans (LineSide.trans ?_ (lineSide_placeFrame ..))
    split
    · exact lineSide_trimFrame ..
    · exact .refl _
  · exact (lineSide_freeFrame ..).trans (lineSide_countRxError ..)

theorem lineSide_endGapFrame (n : LineNo) (s : State) : LineSide s (endGapFrame n s) := by
  unfold endGapFrame
  dsimp only
  split
  · exact lineSide_modLine ..
  · split
    · exact (lineSide_modLine ..).trans ((lineSide_freeFrame ..).trans (lineSide_countRxError ..))
    · exact (lineSide_modLine ..).trans (lineSide_disposeFrame ..)

theorem lineSide_assembleCharacter (n : LineNo) (c : ReceivedCharacter) (s : State) :
    LineSide s (assembleCharacter n c s) := by
  have hc := lineSide_modLine s n (fun l => { l with rx := { l.rx with count := l.rx.count + 1 } })
  unfold assembleCharacter
  dsimp only
  split
  · exact hc
  · split
    · exact hc.trans ((lineSide_discardAssembly ..).trans (lineSide_countRxError ..))
    · split
      · exact hc.trans ((lineSide_discardAssembly ..).trans (lineSide_loseFrame ..))
      · exact hc.trans ((lineSide_appendOctet ‹_›).trans (lineSide_modLine ..))

theorem lineSide_endSyncFrame (n : LineNo) (b : Byte) (s : State) : LineSide s (endSyncFrame n b s) := by
  unfold endSyncFrame
  dsimp only
  split
  · exact lineSide_modLine ..
  · exact (lineSide_modLine ..).trans (lineSide_disposeFrame ..)

theorem lineSide_assembleSyncOctet (n : LineNo) (b : Byte) (s : State) : LineSide s (assembleSyncOctet n b s) := by
  have hc := lineSide_modLine s n (fun l => { l with rx := { l.rx with count := l.rx.count + 1, toCome := l.rx.toCome - 1 } })
  unfold assembleSyncOctet
  dsimp only
  split
  · split
    · exact hc
    · split
      · exact hc.trans ((lineSide_discardAssembly ..).trans (lineSide_loseFrame ..))
      · exact hc.trans ((lineSide_appendOctet ‹_›).trans (lineSide_modLine ..))
  · split
    · exact hc.trans (lineSide_modLine ..)
    · exact hc.trans (lineSide_endSyncFrame ..)

theorem lineSide_takePair (n : LineNo) (high low : Byte) (s : State) : LineSide s (takePair n high low s) := by
  unfold takePair
  dsimp only
  split
  · exact .refl s
  · split
    · exact lineSide_modLine ..
    · split
      · exact lineSide_modLine ..
      · split
        · exact lineSide_beginFrame ..
        · exact (lineSide_modLine ..).trans (lineSide_countRxError ..)

theorem lineSide_gateReceiver (n : LineNo) (s : State) : LineSide s (gateReceiver n s) := by
  unfold gateReceiver
  split <;> first
    | exact (lineSide_discardAssembly ..).trans (lineSide_countRxError ..)
    | exact lineSide_modLine ..
    | exact .refl s

theorem lineSide_detectBreak (n : LineNo) (s : State) : LineSide s (detectBreak n s) := by
  unfold detectBreak
  split
  · dsimp only
    split
    · exact (lineSide_discardAssembly ..).trans (lineSide_countRxError ..)
    · exact lineSide_discardAssembly ..
  · exact lineSide_modLine ..
  · exact lineSide_modLine ..
  · exact .refl s

theorem lineSide_seekReceiver (n : LineNo) (s : State) : LineSide s (seekReceiver n s) := by
  unfold seekReceiver
  split <;> first
    | exact (lineSide_discardAssembly ..).trans (lineSide_countRxError ..)
    | exact lineSide_modLine ..
    | exact .refl s

theorem lineSide_closeReceiver (n : LineNo) (s : State) : LineSide s (closeReceiver n s) := by
  unfold closeReceiver
  split <;> first
    | exact (lineSide_discardAssembly ..).trans (lineSide_countRxError ..)
    | exact lineSide_modLine ..

/-! ## Transmitter -/

theorem lineSide_takeFrame (n : LineNo) (i : Nat) (s : State) : LineSide s (takeFrame n i s) := by
  unfold takeFrame
  exact (lineSide_modFrame s i _).trans (lineSide_modLine _ n _)

theorem lineSide_selectNext (tk : Bool) (n : LineNo) (s : State) : LineSide s (selectNext tk n s) := by
  unfold selectNext
  dsimp only
  split
  · split
    · split <;> exact lineSide_modLine ..
    · split
      · exact lineSide_modLine ..
      · split
        · exact lineSide_modLine ..
        · exact lineSide_takeFrame ..
  · exact .refl s

theorem lineSide_judgeClosed (n : LineNo) (s : State) : LineSide s (judgeClosed n s) := by
  unfold judgeClosed
  split
  · exact (lineSide_finishDiscarding ..).trans (lineSide_modLine ..)
  · exact .refl s

theorem lineSide_settleLine (tk : Bool) (n : LineNo) (s : State) : LineSide s (settleLine tk n s) :=
  (lineSide_selectNext ..).trans ((lineSide_judgeClosed ..).trans (lineSide_judgeConditions ..))

theorem lineSide_endFrame (n : LineNo) (i : Nat) (s : State) : LineSide s (endFrame n i s) := by
  have h := (lineSide_modLine s n
    (fun l => { l with tx := { l.tx with current := none, octet := none, gapAfterBreak := false, state := .gap } })).trans
    (lineSide_releaseChain i _)
  unfold endFrame
  dsimp only
  split
  · exact h
  · split
    · exact h.trans ((lineSide_putFrame ..).trans ((lineSide_enterDone ..).trans (lineSide_modLine ..)))
    · refine h.trans (LineSide.trans ?_ (lineSide_modLine ..))
      split
      · exact lineSide_enterDone ..
      · exact lineSide_enterDiscarding ..

theorem lineSide_endLeadin (n : LineNo) (i : Nat) (s : State) : LineSide s (endLeadin n i s) := by
  unfold endLeadin
  split
  · exact .refl s
  · split
    · exact lineSide_endFrame ..
    · exact lineSide_modLine ..

theorem lineSide_octetBoundary (n : LineNo) (i : Nat) (s : State) : LineSide s (octetBoundary n i s) := by
  have h : LineSide s (if (s.line n).tx.octet.isSome then s.modFrame i (fun r => { r with sentCount := r.sentCount + 1 }) else s) := by
    split
    · exact lineSide_modFrame ..
    · exact .refl s
  unfold octetBoundary
  dsimp only
  split
  · exact .refl s
  · split
    · exact h.trans (lineSide_modLine ..)
    · split
      · exact h.trans (lineSide_modLine ..)
      · split
        · exact h.trans (lineSide_modLine ..)
        · exact h.trans ((lineSide_putFrame ..).trans (lineSide_modLine ..))

theorem lineSide_endBreak (n : LineNo) (st : ReplyStatus) (s : State) : LineSide s (endBreak n st s) := by
  unfold endBreak
  split
  · exact .refl s
  · exact (lineSide_modLine ..).trans (lineSide_joinReply ..)

/-! ## Frame data of segments -/

theorem lineSide_storeData (i : Nat) (data : List Byte) (s : State) : LineSide s (storeData i data s).1 := by
  unfold storeData
  split
  · exact .refl s
  · split
    · exact .refl s
    · have h := lineSide_appendOctets .transmitData i data s
      split <;> simp_all

theorem lineSide_setComplete (i : Nat) (s : State) : LineSide s (setComplete i s) := lineSide_modFrame ..

theorem lineSide_closeFrame (i : Nat) (s : State) : LineSide s (closeFrame i s) := by
  have h := lineSide_setComplete i s
  unfold closeFrame
  dsimp only
  split
  · exact h
  · split
    · split
      · exact h.trans (lineSide_putFrame ..)
      · exact h
    · exact h.trans (lineSide_failFrame ..)

theorem lineSide_storeAndClose (i : Nat) (data : List Byte) (last : Bool) (s : State) :
    LineSide s (storeAndClose i data last s) := by
  have h := lineSide_storeData i data s
  unfold storeAndClose
  split
  · rename_i s1 heq
    rw [heq] at h
    split
    · exact h.trans (lineSide_closeFrame ..)
    · exact h
  · rename_i s1 o heq
    rw [heq] at h
    refine h.trans (LineSide.trans ?_ (lineSide_failFrame ..))
    split
    · exact lineSide_setComplete ..
    · exact .refl _

theorem lineSide_acceptFirst (g : Segment) (n : LineNo) (i : Nat) (s : State) : LineSide s (acceptFirst g n i s) := by
  unfold acceptFirst
  refine LineSide.trans ?_ (lineSide_storeAndClose ..)
  exact ⟨rfl, rfl, rfl, rfl, rfl, rfl, rfl, rfl, rfl⟩

end Sys2Proof.Machine
end

