-- ==== Sys2Proof/Laws/Serializer.lean ====
section
/-! SUPPORT. Everything that forming a record and the free serializer's choice leave alone. -/

namespace Sys2Proof.Machine

/-- t differs from s at most in the host link, the lines, the frame records, the reject slots, the reply queue and the
round-robin state. -/
structure UpstreamSide (s t : State) : Prop where
  pending : t.pending = s.pending
  rstLow : t.rstLow = s.rstLow
  reserveFloor : t.reserveFloor = s.reserveFloor
  recordReserve : t.recordReserve = s.recordReserve
  straySegments : t.straySegments = s.straySegments
  completion : t.completion = s.completion
  tags : t.tags = s.tags
  freeCells : t.store.freeCells = s.store.freeCells
  octets : t.store.octets = s.store.octets

theorem UpstreamSide.refl (s : State) : UpstreamSide s s := ⟨rfl, rfl, rfl, rfl, rfl, rfl, rfl, rfl, rfl⟩

theorem UpstreamSide.trans {s t u : State} (h : UpstreamSide s t) (k : UpstreamSide t u) : UpstreamSide s u :=
  ⟨k.pending.trans h.pending, k.rstLow.trans h.rstLow, k.reserveFloor.trans h.reserveFloor,
    k.recordReserve.trans h.recordReserve, k.straySegments.trans h.straySegments, k.completion.trans h.completion,
    k.tags.trans h.tags, k.freeCells.trans h.freeCells, k.octets.trans h.octets⟩

theorem upstreamSide_modLine (s : State) (n : LineNo) (f : Line → Line) : UpstreamSide s (s.modLine n f) :=
  ⟨rfl, rfl, rfl, rfl, rfl, rfl, rfl, rfl, rfl⟩

theorem upstreamSide_modLink (s : State) (f : HostLink → HostLink) : UpstreamSide s (s.modLink f) :=
  ⟨rfl, rfl, rfl, rfl, rfl, rfl, rfl, rfl, rfl⟩

theorem upstreamSide_markEntry (mark : Bool) (s : State) (e : EntryRef) : UpstreamSide s (markEntry mark s e) := by
  cases e with
  | frame i => constructor <;> simp [markEntry]
  | reject k =>
    simp only [markEntry]
    split
    · exact .refl s
    · exact ⟨rfl, rfl, rfl, rfl, rfl, rfl, rfl, rfl, rfl⟩

theorem upstreamSide_markEntries (mark : Bool) (es : List EntryRef) (s : State) :
    UpstreamSide s (es.foldl (markEntry mark) s) := by
  induction es generalizing s with
  | nil => exact .refl s
  | cons e es ih => exact (upstreamSide_markEntry mark s e).trans (ih _)

theorem link_markEntry (mark : Bool) (s : State) (e : EntryRef) : (markEntry mark s e).link = s.link := by
  cases e with
  | frame i => simp [markEntry]
  | reject k =>
    simp only [markEntry]
    split <;> rfl

theorem link_markEntries (mark : Bool) (es : List EntryRef) (s : State) : (es.foldl (markEntry mark) s).link = s.link := by
  induction es generalizing s with
  | nil => rfl
  | cons e es ih => exact (ih _).trans (link_markEntry mark s e)

/-- Which class formed a record, and how (Table 7.1): the five forms of the Arbiter's answer. -/
theorem formRecord_cases {s t : State} {c : Content} (h : formRecord s = some (c, t)) :
    formReply s = some (c, t) ∨ formCondition s = some (c, t) ∨ formDone s = some (c, t) ∨ formClosed s = some (c, t) ∨
      formSegment s = some (c, t) := by
  unfold formRecord at h
  split at h
  · simp_all
  · split at h
    · simp_all
    · split at h
      · simp_all
      · split at h
        · simp_all
        · simp_all

/-- Forming a record leaves the link alone, and all that UpstreamSide names (R128 to R139). -/
theorem formRecord_keeps {s t : State} {c : Content} (h : formRecord s = some (c, t)) :
    UpstreamSide s t ∧ t.link = s.link := by
  rcases formRecord_cases h with h | h | h | h | h
  · simp only [formReply, Option.map_eq_some_iff] at h
    obtain ⟨q, _, h⟩ := h
    cases h
    exact ⟨⟨rfl, rfl, rfl, rfl, rfl, rfl, rfl, rfl, rfl⟩, rfl⟩
  · simp only [formCondition, Option.map_eq_some_iff] at h
    obtain ⟨n, _, h⟩ := h
    cases h
    exact ⟨upstreamSide_modLine .., rfl⟩
  · unfold formDone at h
    split at h
    · cases h
    · cases h
      exact ⟨upstreamSide_markEntries .., link_markEntries ..⟩
  · simp only [formClosed, Option.map_eq_some_iff] at h
    obtain ⟨n, _, h⟩ := h
    cases h
    exact ⟨upstreamSide_modLine .., rfl⟩
  · unfold formSegment at h
    split at h
    · cases h
    · split at h
      · cases h
      · simp only [Option.map_eq_some_iff] at h
        obtain ⟨r, _, h⟩ := h
        cases h
        exact ⟨⟨rfl, rfl, rfl, rfl, rfl, rfl, rfl, rfl, rfl⟩, rfl⟩

theorem upstreamSide_beginSending (type : PartType) (seq : Seq) (payload : List Byte) (s : State) :
    UpstreamSide s (beginSending type seq payload s) := upstreamSide_modLink ..

theorem upstreamSide_sendAckIfDue (s : State) : UpstreamSide s (sendAckIfDue s) := by
  unfold sendAckIfDue
  split
  · exact upstreamSide_beginSending ..
  · exact .refl s

theorem upstreamSide_sendNewOrAck (tk : Bool) (s : State) : UpstreamSide s (sendNewOrAck tk s) := by
  unfold sendNewOrAck
  split
  · split
    · exact (formRecord_keeps ‹_›).1.trans ((upstreamSide_modLink ..).trans (upstreamSide_beginSending ..))
    · exact upstreamSide_sendAckIfDue s
  · exact upstreamSide_sendAckIfDue s

/-- Everything the free serializer's choice leaves alone (R168). -/
theorem upstreamSide_serve (tk : Bool) (s : State) : UpstreamSide s (serve tk s) := by
  unfold serve
  split
  · exact .refl s
  · split
    · exact (upstreamSide_beginSending ..).trans (upstreamSide_modLink ..)
    · exact (upstreamSide_beginSending ..).trans (upstreamSide_modLink ..)
    · split
      · exact .refl s
      · unfold chooseUp
        split
        · exact (upstreamSide_beginSending ..).trans (upstreamSide_modLink ..)
        · split
          · exact upstreamSide_sendNewOrAck ..
          · split
            · exact (upstreamSide_beginSending ..).trans (upstreamSide_modLink ..)
            · exact upstreamSide_sendAckIfDue s

end Sys2Proof.Machine
end

