-- ==== Sys2Proof/Laws/Commands.lean ====
section
/-! SUPPORT. The bodies of the commands, what follows an acknowledgement, and a link reset leave the command queue and RST# alone;
the line commands leave all that LineSide names alone. -/

namespace Sys2Proof.Machine

/-- The command queue and RST# are left alone. -/
abbrev QueueKept (s t : State) : Prop := t.pending = s.pending ∧ t.rstLow = s.rstLow

theorem LineSide.queueKept {s t : State} (h : LineSide s t) : QueueKept s t := ⟨h.pending, h.rstLow⟩

theorem UpstreamSide.queueKept {s t : State} (h : UpstreamSide s t) : QueueKept s t := ⟨h.pending, h.rstLow⟩

theorem QueueKept.trans {s t u : State} (h : QueueKept s t) (k : QueueKept t u) : QueueKept s u :=
  ⟨k.1.trans h.1, k.2.trans h.2⟩

theorem queueKept_foldl {β : Type} (f : State → β → State) (h : ∀ s b, QueueKept s (f s b)) (bs : List β) (s : State) :
    QueueKept s (bs.foldl f s) := by
  induction bs generalizing s with
  | nil => exact ⟨rfl, rfl⟩
  | cons b bs ih => exact (h s b).trans (ih _)

/-! ## Line commands -/

theorem lineSide_refuse (c : CommandCode) (tag : Byte) (st : ReplyStatus) (s : State) : LineSide s (refuse c tag st s) :=
  lineSide_joinReply ..

theorem lineSide_replyOk (c : CommandCode) (tag : Byte) (rs : List Byte) (s : State) : LineSide s (replyOk c tag rs s) :=
  lineSide_joinReply ..

theorem lineSide_openLineBody (tag : Byte) (ps : List Byte) (s : State) : LineSide s (openLineBody tag ps s) := by
  unfold openLineBody
  split
  · split
    · exact lineSide_refuse ..
    · split
      · exact lineSide_refuse ..
      · split
        · exact lineSide_refuse ..
        · exact (lineSide_modLine ..).trans ((lineSide_settleLine ..).trans (lineSide_replyOk ..))
  · exact .refl s

theorem lineSide_setLineBody (tag : Byte) (ps : List Byte) (s : State) : LineSide s (setLineBody tag ps s) := by
  unfold setLineBody
  split
  · split
    · exact lineSide_refuse ..
    · split
      · exact lineSide_refuse ..
      · split
        · exact lineSide_refuse ..
        · exact (lineSide_modLine ..).trans ((lineSide_settleLine ..).trans (lineSide_replyOk ..))
  · exact .refl s

theorem lineSide_queryLineBody (tag : Byte) (ps : List Byte) (s : State) : LineSide s (queryLineBody tag ps s) := by
  unfold queryLineBody
  split
  · split
    · exact lineSide_refuse ..
    · split
      · exact lineSide_refuse ..
      · split
        · exact (lineSide_modLine ..).trans (lineSide_replyOk ..)
        · exact lineSide_replyOk ..
  · exact .refl s

theorem lineSide_discardQueued (n : LineNo) (s : State) (i : Nat) : LineSide s (discardQueued n s i) := by
  unfold discardQueued
  split
  · exact .refl s
  · exact (lineSide_freeFrame ..).trans (lineSide_modLine ..)

theorem lineSide_releaseDiscard (n : LineNo) (s : State) : LineSide s (releaseDiscard n s) := by
  unfold releaseDiscard
  exact (LineSide.foldl _ (lineSide_discardQueued n) _ s).trans (lineSide_modLine _ n _)

theorem lineSide_applyTxMode (n : LineNo) (t : TxMode) (limit : Nat) (s : State) : LineSide s (applyTxMode n t limit s) := by
  unfold applyTxMode
  split
  · exact lineSide_flushHandling ..
  · split
    · exact .refl s
    · exact lineSide_modLine ..

theorem lineSide_applyRxMode (n : LineNo) (r : RxMode) (s : State) : LineSide s (applyRxMode n r s) := by
  unfold applyRxMode
  split
  · exact .refl s
  · exact lineSide_releaseDiscard ..

theorem lineSide_closeOpen (tag : Byte) (n : LineNo) (t : TxMode) (r : RxMode) (limit : Nat) (s : State) :
    LineSide s (closeOpen tag n t r limit s) :=
  (lineSide_modLine ..).trans ((lineSide_closeReceiver ..).trans ((lineSide_endBreak ..).trans ((lineSide_replyOk ..).trans
    ((lineSide_applyTxMode ..).trans ((lineSide_applyRxMode ..).trans (lineSide_settleLine ..))))))

theorem lineSide_escalate (tag : Byte) (n : LineNo) (t : TxMode) (r : RxMode) (s : State) :
    LineSide s (escalate tag n t r s) := by
  have hf (b : Bool) (u : State) : LineSide u (if b then flushHandling n u else u) := by
    split
    · exact lineSide_flushHandling ..
    · exact .refl u
  have hr (b : Bool) (u : State) : LineSide u (if b then releaseDiscard n u else u) := by
    split
    · exact lineSide_releaseDiscard ..
    · exact .refl u
  unfold escalate
  dsimp only
  split
  · exact (hf _ s).trans ((hr _ _).trans ((lineSide_replyOk ..).trans (lineSide_settleLine ..)))
  · exact lineSide_refuse ..

theorem lineSide_closeLineBody (tag : Byte) (ps : List Byte) (s : State) : LineSide s (closeLineBody tag ps s) := by
  unfold closeLineBody
  split
  · split
    · exact lineSide_refuse ..
    · split
      · split
        · exact lineSide_closeOpen ..
        · exact lineSide_escalate ..
        · exact lineSide_refuse ..
      · exact lineSide_refuse ..
  · exact .refl s

theorem lineSide_ackConditionBody (tag : Byte) (ps : List Byte) (s : State) : LineSide s (ackConditionBody tag ps s) := by
  unfold ackConditionBody
  split
  · split
    · exact lineSide_refuse ..
    · split
      · exact (lineSide_modLine ..).trans ((lineSide_judgeConditions ..).trans (lineSide_replyOk ..))
      · exact lineSide_replyOk ..
  · exact .refl s

theorem lineSide_sendBreakBody (tag : Byte) (ps : List Byte) (s : State) : LineSide s (sendBreakBody tag ps s) := by
  unfold sendBreakBody
  split
  · split
    · exact lineSide_refuse ..
    · dsimp only
      split
      · exact lineSide_refuse ..
      · split
        · exact lineSide_refuse ..
        · split
          · exact lineSide_refuse ..
          · exact (lineSide_modLine ..).trans (lineSide_settleLine ..)
  · exact .refl s

theorem lineSide_seekLineBody (tag : Byte) (ps : List Byte) (s : State) : LineSide s (seekLineBody tag ps s) := by
  unfold seekLineBody
  split
  · split
    · exact lineSide_refuse ..
    · split
      · exact lineSide_refuse ..
      · exact (lineSide_seekReceiver ..).trans ((lineSide_settleLine ..).trans (lineSide_replyOk ..))
  · exact .refl s

theorem lineSide_settleAt (tk : Bool) (n : Option LineNo) (s : State) : LineSide s (settleAt tk n s) := by
  unfold settleAt
  split
  · exact .refl s
  · exact lineSide_settleLine ..

theorem lineSide_cancelFrameBody (tag : Byte) (ps : List Byte) (s : State) : LineSide s (cancelFrameBody tag ps s) := by
  unfold cancelFrameBody
  split
  · split
    · exact lineSide_refuse ..
    · exact (lineSide_failFrame ..).trans ((lineSide_settleAt ..).trans (lineSide_replyOk ..))
  · exact .refl s

theorem lineSide_moveChosen (src dst : LineNo) (p : Position) (chosen : List Candidate) (s : State) :
    LineSide s (moveChosen src dst p chosen s) := by
  unfold moveChosen
  exact (lineSide_modLine ..).trans ((lineSide_modLine ..).trans
    (LineSide.foldl _ (fun t i => lineSide_modFrame t i _) _ _))

theorem lineSide_redirectBody (tag : Byte) (ps : List Byte) (s : State) : LineSide s (redirectBody tag ps s) := by
  unfold redirectBody
  split
  · split
    · split
      · split
        · exact lineSide_refuse ..
        · split
          · exact lineSide_refuse ..
          · split
            · exact lineSide_refuse ..
            · exact (lineSide_moveChosen ..).trans ((lineSide_settleLine ..).trans ((lineSide_settleLine ..).trans
                (lineSide_replyOk ..)))
      · exact lineSide_refuse ..
    · exact lineSide_refuse ..
  · exact .refl s

/-! ## Every command, and the records that stall -/

theorem queueKept_endExecution (s : State) : QueueKept s (endExecution s) := ⟨rfl, rfl⟩

theorem queueKept_commandBody (c : CommandCode) (tag : Byte) (ps : List Byte) (s : State) :
    QueueKept s (commandBody c tag ps s) := by
  cases c
  case identify => exact ⟨rfl, rfl⟩
  case setDevice => simp only [commandBody, setDeviceBody]; split <;> try split
                    all_goals exact ⟨rfl, rfl⟩
  case queryDevice => simp only [commandBody, queryDeviceBody]; split <;> try split
                      all_goals first | exact ⟨rfl, rfl⟩ | (split <;> exact ⟨rfl, rfl⟩)
  case resetDevice => exact ⟨rfl, rfl⟩
  case openLine => exact (lineSide_openLineBody ..).queueKept
  case closeLine => exact (lineSide_closeLineBody ..).queueKept
  case queryLine => exact (lineSide_queryLineBody ..).queueKept
  case ackCondition => exact (lineSide_ackConditionBody ..).queueKept
  case sendBreak => exact (lineSide_sendBreakBody ..).queueKept
  case seekLine => exact (lineSide_seekLineBody ..).queueKept
  case cancelFrame => exact (lineSide_cancelFrameBody ..).queueKept
  case redirect => exact (lineSide_redirectBody ..).queueKept
  case setLine => exact (lineSide_setLineBody ..).queueKept

theorem queueKept_runKnown (c : CommandCode) (body : Byte → List Byte → State → State)
    (h : ∀ tag ps s, QueueKept s (body tag ps s)) (payload : List Byte) (s : State) :
    QueueKept s (runKnown c body payload s) := by
  unfold runKnown
  split
  · refine QueueKept.trans ?_ (queueKept_endExecution _)
    split
    · exact h ..
    · exact (lineSide_refuse ..).queueKept
  · exact (lineSide_refuse ..).queueKept.trans (queueKept_endExecution _)

theorem queueKept_runUnknown (payload : List Byte) (s : State) : QueueKept s (runUnknown payload s) := by
  unfold runUnknown
  split <;> exact ⟨rfl, rfl⟩

theorem queueKept_runCommand (payload : List Byte) (s : State) : QueueKept s (runCommand payload s) := by
  unfold runCommand
  split
  · exact queueKept_runUnknown ..
  · exact queueKept_runKnown _ _ (queueKept_commandBody _) ..

theorem queueKept_takeCommand (run : List Byte → State → State) (h : ∀ p s, QueueKept s (run p s)) (payload : List Byte)
    (s : State) : QueueKept s (takeCommand run payload s) := by
  unfold takeCommand
  split
  · exact ⟨rfl, rfl⟩
  · exact h ..

/-- A later segment leaves the queue alone. -/
theorem queueKept_laterSegment (g : Segment) (s : State) : QueueKept s (laterSegment g s) := by
  unfold laterSegment
  split
  · exact ⟨rfl, rfl⟩
  · split
    · exact ⟨rfl, rfl⟩
    · split
      · exact (lineSide_storeAndClose ..).queueKept
      · split
        · split
          · exact (lineSide_setComplete ..).queueKept
          · exact ⟨rfl, rfl⟩
        · split
          · split
            · exact ⟨rfl, rfl⟩
            · exact (lineSide_failFrame ..).queueKept
          · exact (lineSide_storeAndClose ..).queueKept
      · split
        · exact ⟨rfl, rfl⟩
        · exact (lineSide_failFrame ..).queueKept
      · split
        · exact ((lineSide_setComplete ..).trans (lineSide_enterDone ..)).queueKept
        · exact ⟨rfl, rfl⟩
      · exact ⟨rfl, rfl⟩

theorem queueKept_runSegment (tk : Bool) (payload : List Byte) (s : State) : QueueKept s (runSegment tk payload s) := by
  unfold runSegment
  split
  · exact ⟨rfl, rfl⟩
  · split
    · split
      · exact ((lineSide_acceptFirst ..).trans (lineSide_settleLine ..)).queueKept.trans (queueKept_endExecution _)
      · split
        · rename_i h
          simp only [rejectFirst, Option.map_eq_some_iff] at h
          obtain ⟨k, _, rfl⟩ := h
          exact ⟨rfl, rfl⟩
        · exact ⟨rfl, rfl⟩
    · exact (queueKept_laterSegment ..).trans ((lineSide_settleAt ..).queueKept.trans (queueKept_endExecution _))

/-! The record that is offered again: nothing but its mark changes. -/

@[simp] theorem offerAgain_lines (s : State) : (offerAgain s).lines = s.lines := rfl

@[simp] theorem offerAgain_store (s : State) : (offerAgain s).store = s.store := rfl

@[simp] theorem offerAgain_tags (s : State) : (offerAgain s).tags = s.tags := rfl

@[simp] theorem offerAgain_rejects (s : State) : (offerAgain s).rejects = s.rejects := rfl

@[simp] theorem offerAgain_completion (s : State) : (offerAgain s).completion = s.completion := rfl

@[simp] theorem offerAgain_occupied (s : State) : (offerAgain s).occupied = s.occupied := rfl

@[simp] theorem offerAgain_inbound (s : State) : (offerAgain s).link.inbound = s.link.inbound := rfl

@[simp] theorem offerAgain_headStalled (s : State) : (offerAgain s).link.headStalled = false := rfl

/-- A command that stalled and stalls again leaves everything as it was. -/
theorem stallHead_offerAgain {s : State} (h : s.link.headStalled = true) : stallHead (offerAgain s) = s := by
  have e : { s.link with headStalled := true } = s.link := by rw [← h]
  show { s with link := { s.link with headStalled := true } } = s
  rw [e]

theorem queueKept_offerAgain (s : State) : QueueKept s (offerAgain s) := ⟨rfl, rfl⟩

theorem queueKept_rejudgeCommand (s : State) : QueueKept s (rejudgeCommand s) := by
  unfold rejudgeCommand
  split
  · exact (queueKept_offerAgain s).trans (queueKept_takeCommand _ queueKept_runCommand ..)
  · exact ⟨rfl, rfl⟩

theorem queueKept_rejudgeSegment (tk : Bool) (s : State) : QueueKept s (rejudgeSegment tk s) := by
  unfold rejudgeSegment
  split
  · exact (queueKept_offerAgain s).trans (queueKept_runSegment ..)
  · exact ⟨rfl, rfl⟩

/-! ## Acknowledgement and link reset -/

theorem queueKept_releaseEntry (s : State) (e : EntryRef) : QueueKept s (releaseEntry s e) := by
  unfold releaseEntry
  cases e with
  | frame i => exact (lineSide_freeFrame i _).queueKept
  | reject k => exact ⟨rfl, rfl⟩

theorem queueKept_releaseReceived (i : Nat) (s : State) : QueueKept s (releaseReceived i s) := by
  unfold releaseReceived
  split
  · exact ⟨rfl, rfl⟩
  · exact ((lineSide_freeFrame ..).trans (lineSide_modLine ..)).queueKept

theorem queueKept_releaseRecord (s : State) (k : Retained) : QueueKept s (releaseRecord s k) := by
  unfold releaseRecord
  split
  · exact ⟨rfl, rfl⟩
  · exact ⟨rfl, rfl⟩
  · exact queueKept_foldl _ queueKept_releaseEntry ..
  · exact ⟨rfl, rfl⟩
  · split
    · exact queueKept_releaseReceived ..
    · exact ⟨rfl, rfl⟩

theorem queueKept_afterReleases (acked : List Retained) (lines : List LineNo) (s : State) :
    QueueKept s (afterReleases acked lines s) := by
  have hc (b : Bool) (u : State) : QueueKept u (if b then rejudgeCommand u else u) := by
    split
    · exact queueKept_rejudgeCommand u
    · exact ⟨rfl, rfl⟩
  have hs (b : Bool) (u : State) : QueueKept u (if b then rejudgeSegment false u else u) := by
    split
    · exact queueKept_rejudgeSegment ..
    · exact ⟨rfl, rfl⟩
  unfold afterReleases
  exact (hc _ s).trans ((hs _ _).trans (queueKept_foldl _ (fun t n => (lineSide_settleLine false n t).queueKept) ..))

theorem queueKept_takeAck (a : Seq) (room : Byte) (s : State) : QueueKept s (takeAck a room s) :=
  (show QueueKept s (s.modLink (fun h => h.acknowledge a room)) from ⟨rfl, rfl⟩).trans
    ((queueKept_foldl _ queueKept_releaseRecord ..).trans (queueKept_afterReleases ..))

theorem queueKept_rewindRecord (s : State) (k : Retained) : QueueKept s (rewindRecord s k) := by
  unfold rewindRecord
  split
  · exact ⟨rfl, rfl⟩
  · exact ⟨rfl, rfl⟩
  · exact (upstreamSide_markEntries ..).queueKept
  · exact ⟨rfl, rfl⟩
  · exact ⟨rfl, rfl⟩

theorem queueKept_linkReset (p : HelloParams) (room : Byte) (s : State) : QueueKept s (linkReset p room s) :=
  (queueKept_foldl _ queueKept_rewindRecord s.link.retain s).trans ⟨rfl, rfl⟩

end Sys2Proof.Machine
end

