-- ==== Sys2Proof/Tests/Slice0.lean ====
section
/-! SUPPORT. Tests: the checks of WellFormed, known answers of the two CRCs, small steps, and for every statement with hypotheses
a state and operands that meet them together. -/

-- The theorems below are evaluated one after another: in parallel each waits for the others with a thread of its own.
set_option Elab.async false

namespace Sys2Proof.Tests

open Sys2Proof.Machine

/-! ## WellFormed -/

/-- A payload of 257 octets cannot be in a checked record (R152). -/
theorem test_wf_refuses_long_hello : (Instr.hello { seq := 0, ack := 0, room := 8, payload := List.replicate 257 0 }).wf = false := by
  decide +kernel

theorem test_wf_refuses_long_ack : (Instr.hostAck { seq := 0, ack := 0, room := 8, payload := List.replicate 257 0 }).wf = false := by
  decide +kernel

theorem test_wf_refuses_long_nak : (Instr.hostNak { seq := 0, ack := 0, room := 8, payload := List.replicate 257 0 }).wf = false := by
  decide +kernel

theorem test_wf_refuses_long_command :
    (Instr.hostSequencedRecord .command { seq := 0, ack := 0, room := 8, payload := List.replicate 257 0 }).wf = false := by
  decide +kernel

/-- The longest payload is taken. -/
theorem test_wf_takes_256_octets : (Instr.hello { seq := 0, ack := 0, room := 8, payload := List.replicate 256 0 }).wf = true := by
  decide +kernel

/-- The octets of a good record end no record in error; the record CRC of 02h 00h 00h 08h 00h 00h is in its last two octets. -/
theorem test_wf_refuses_good_record_as_error :
    (Instr.receiveRecordError (hostOctets .ack { seq := 0, ack := 0, room := 8, payload := [] }) false).wf = false := by decide +kernel

/-- A record that has not ended ends in error by a bad character alone. -/
theorem test_wf_incomplete_record :
    (Instr.receiveRecordError [0x02, 0x00] false).wf = false ∧ (Instr.receiveRecordError [0x02, 0x00] true).wf = true := by decide +kernel

/-- A payload length above 256 ends the record at its header (R152 step 1), not later. -/
theorem test_wf_record_too_long :
    (Instr.receiveRecordError [0x10, 0, 0, 8, 0x01, 0x01] false).wf = true ∧
      (Instr.receiveRecordError [0x10, 0, 0, 8, 0x01, 0x01, 0x00] false).wf = false := by decide +kernel

/-- Fifteen bits cannot end with a sync pattern; sixteen can (R81). -/
theorem test_wf_short_pattern_match :
    (Instr.patternMatch { line := 0, bits := List.replicate 15 true }).wf = false ∧
      (Instr.patternMatch { line := 0, bits := List.replicate 16 true }).wf = true := by decide +kernel

/-! ## Known answers -/

/-- Line CRC of "123456789": generator 8005h, initial value FFFFh, most significant bit first (R62; worked by hand). -/
theorem test_line_crc_known_answer :
    lineCrc [0x31, 0x32, 0x33, 0x34, 0x35, 0x36, 0x37, 0x38, 0x39] = 0xAEE7#16 := by decide +kernel

/-- Record CRC of "123456789": generator 1021h, initial value FFFFh, least significant bit first (R151; worked by hand). -/
theorem test_record_crc_known_answer :
    recordCrc [0x31, 0x32, 0x33, 0x34, 0x35, 0x36, 0x37, 0x38, 0x39] = 0x6F91#16 := by decide +kernel

/-- The register over a length field of 1 and one data octet is their line CRC; its complement is another trailer (R62). -/
theorem test_sync_crc_check :
    let sent := lineCrcOctet (lineCrcOctet (lineCrcOctet 0xFFFF#16 0x00#8) 0x01#8) 0x41#8
    sent = lineCrc [0x00, 0x01, 0x41] ∧ highFirst sent.toNat ≠ highFirst (~~~ sent).toNat := by decide +kernel

/-- No row of spec/opcode_table.json has bits: no word spells a command. -/
theorem test_decode_no_words : decodeTableWord 8 0 = none ∧ decodeTableWord 32 0x12345678 = none := by decide +kernel

/-! ## States for the tests -/

/-- An open line, its inputs high, its receiver in this state. -/
def openLine (f : Framing) (d : Duplex) (x : RxState) : Line :=
  { Line.reset true true with
    state := .opened
    config := { LineConfig.reset with framing := f, duplex := d }
    tx := { Transmitter.reset with state := .idle }
    rx := { Receiver.reset with state := x } }

/-- An open gap-framing line in full duplex with its receiver in IDLE. -/
def gapLine : Line := openLine (.gap .none 1 2) .full .idle

/-- An open sync-framing line in full duplex with its receiver in SEEK. -/
def syncLine : Line := openLine (.sync .line 0x7E81 2) .full .seek

/-- Eight sampled bits in the order they came, 1 for marking. -/
def sampled (a b c d e f g h : Nat) : OctetBits := #v[a == 1, b == 1, c == 1, d == 1, e == 1, f == 1, g == 1, h == 1]

/-- The state after reset with this line 0. -/
def withLine (l : Line) : State := State.reset.modLine 0 (fun _ => l)

/-- The line with its transmitter changed. -/
def txOf (f : Transmitter → Transmitter) (l : Line) : Line := { l with tx := f l.tx }

/-- The line with its receiver changed. -/
def rxOf (f : Receiver → Receiver) (l : Line) : Line := { l with rx := f l.rx }

/-- The state with a record at the head of the inbound buffer. -/
def offered (kind : SequencedKind) (payload : List Byte) (s : State) : State :=
  s.modLink (fun h => { h with inbound := [{ kind := kind, payload := payload }] })

/-- The state with frame record 0. -/
def framed (r : FrameRecord) (s : State) : State := s.putFrame 0 r

/-- A transmit record of line 0 in this state. -/
def txRecord (x : FrameState) : FrameRecord := { kind := .tx, state := x, line := 0 }

/-- A receive record of line 0 in this state. -/
def rxRecord (x : FrameState) : FrameRecord := { kind := .rx, state := x, line := 0 }

/-- Every frame record allocated. -/
def allRecords (s : State) : State :=
  { s with store := { s.store with frames := (List.range 384).map (fun i => (i, txRecord .done)) } }

/-- The link UP with the serializer free. -/
def linkUp (s : State) : State := s.modLink (fun h => { h with state := .up, sending := none })

/-- The state after the event of this row, the state itself where it does not answer next. -/
def after (c : Instr) (s : State) : State :=
  match exec c s with
  | .next t => t
  | _ => s

/-- Executes, from its four parts. -/
theorem executes {s : State} {c : CommandCode} {tag : Byte} {ps : List Byte} (h1 : s.rstLow = false)
    (h2 : s.link.headStalled = false) (h3 : s.occupied < 16)
    (h4 : s.link.inbound.head? = some { kind := .command, payload := c.octet :: tag :: ps }) : s.Executes c tag ps :=
  ⟨h1, h2, h3, h4⟩

/-- Offers, from its three parts. -/
theorem offers {s : State} {payload : List Byte} (h1 : s.rstLow = false) (h2 : s.link.headStalled = false)
    (h3 : s.link.inbound.head? = some { kind := .txSegment, payload := payload }) : s.Offers payload := ⟨h1, h2, h3⟩

/-! ## Queue, resets, tick -/

theorem test_witness_step_front : ({ State.reset with pending := [.tick] } : State).pending = [.tick] ∧ State.reset.pending = [] := by
  decide +kernel

theorem test_witness_device_reset :
    let s := offered .command [0x04, 0x09] State.reset
    s.rstLow = false ∧ s.link.headStalled = false ∧
      s.link.inbound.head? = some { kind := .command, payload := [0x04#8, 0x09#8] } := by decide +kernel

theorem test_witness_rst_low : ({ State.reset with rstLow := true } : State).rstLow = true := rfl

theorem test_witness_tick : State.reset.rstLow = false ∧ State.reset.link.headStalled = false := by decide +kernel

/-- A tick counts the age of a queued frame, not of one being sent (R12). -/
theorem test_tick_ages :
    ((after .tick (framed (txRecord .ready) State.reset)).frame 0).map FrameRecord.age = some 1 ∧
      ((after .tick (framed (txRecord .sending) State.reset)).frame 0).map FrameRecord.age = some 0 := by decide +kernel

/-! ## Cell Store -/

/-- A state without frames holds every cell in the pool, and its chains are as they should be. -/
theorem cellsKept_of_no_frames {s : State} (h1 : s.store.frames = []) (h2 : s.store.freeCells = List.range 2048) :
    s.cellsKept ∧ s.chainsKept := by
  simp [State.cellsKept, State.chainsKept, State.heldCells, h1, h2]

/-- Cells 0 and 1 in the chain of frame record 0, the others in the pool: the store laws hold. -/
theorem cellsKept_of_two_cells {s : State} {r : FrameRecord} {a b : Nat} (h1 : s.store.frames = [(0, r)])
    (h2 : s.store.freeCells = (List.range 2048).drop 2)
    (h3 : r.chain = [{ cell := 0, fill := a }, { cell := 1, fill := b }]) : s.cellsKept := by
  refine ⟨by simp [h1], ?_⟩
  have hs : List.range 2048 = [0, 1] ++ (List.range 2048).drop 2 := by decide +kernel
  have hh : s.heldCells = [0, 1] := by simp [State.heldCells, h1, h3]
  rw [h2, hh]
  conv => rhs; rw [hs]
  exact List.perm_append_comm

/-- A frame record with the whole cell 0 and b octets of cell 1. -/
def twoCells (x : FrameRecord) (b : Nat) : FrameRecord :=
  { x with chain := [{ cell := 0, fill := 32 }, { cell := 1, fill := b }], stored := 32 + b }

/-- The state whose frame record 0 holds cells 0 and 1. -/
def twoCellState (x : FrameRecord) (b : Nat) (s : State) : State :=
  { s with store := { freeCells := (List.range 2048).drop 2, octets := [], frames := [(0, twoCells x b)] } }

theorem twoCellState_cellsKept (x : FrameRecord) (b : Nat) (s : State) : (twoCellState x b s).cellsKept :=
  cellsKept_of_two_cells (r := twoCells x b) (a := 32) (b := b) (by simp only [twoCellState]) (by simp only [twoCellState])
    (by simp only [twoCells])

/-- Room in the last cell; the last cell full and the claim served, above and at the reserve floor by kind of claim; and the
claim refused at the floor. -/
theorem test_witness_append :
    (∀ b, (twoCellState (rxRecord .assembling) b State.reset).cellsKept) ∧
      (twoCellState (rxRecord .assembling) 31 State.reset).chainsKept ∧
      (twoCellState (rxRecord .assembling) 32 State.reset).chainsKept ∧
      (twoCells (rxRecord .assembling) 31).chain.getLast?.map ChainCell.fill = some 31 ∧
      (twoCells (rxRecord .assembling) 32).chain.getLast?.map ChainCell.fill = some 32 ∧
      (appendOctet .receiveData 0 0x41#8 (twoCellState (rxRecord .assembling) 31 State.reset)).isSome = true ∧
      (appendOctet .transmitData 0 0x41#8 (twoCellState (txRecord .filling) 32 State.reset)).isSome = true ∧
      appendOctet .transmitData 0 0x41#8
        { twoCellState (txRecord .filling) 32 State.reset with reserveFloor := 2046 } = none ∧
      (appendOctet .receiveData 0 0x41#8
        { twoCellState (rxRecord .assembling) 32 State.reset with reserveFloor := 2046 }).isSome = true := by
  refine ⟨fun b => twoCellState_cellsKept _ b _, ?_⟩
  decide +kernel

/-- A chain whose last cell holds exactly 1 octet, exactly 2, and 3: the trim of two octets (R3). -/
theorem test_witness_trim :
    (twoCells (rxRecord .assembling) 1).chainKept ∧ (twoCells (rxRecord .assembling) 2).chainKept ∧
      3 ≤ (twoCells (rxRecord .assembling) 1).stored ∧
      (trimmedChain (twoCells (rxRecord .assembling) 1).chain) = ([{ cell := 0, fill := 31 }], [1]) ∧
      (trimmedChain (twoCells (rxRecord .assembling) 2).chain) = ([{ cell := 0, fill := 32 }], [1]) ∧
      (trimmedChain (twoCells (rxRecord .assembling) 3).chain) =
        ([{ cell := 0, fill := 32 }, { cell := 1, fill := 1 }], []) := by decide +kernel

/-- A frame of exactly three octets, the fewest that a trim meets. -/
theorem test_witness_trim_three :
    let r : FrameRecord := { rxRecord .assembling with chain := [{ cell := 0, fill := 3 }], stored := 3 }
    (framed r State.reset).frame 0 = some r ∧ r.chainKept ∧ 3 ≤ r.stored := by decide +kernel

/-- A record is released with its chain: both cells are in the pool behind the others (R16). -/
theorem test_witness_free_frame :
    let s := twoCellState (rxRecord .assembling) 5 State.reset
    let t := freeFrame 0 s
    s.frame 0 = some (twoCells (rxRecord .assembling) 5) ∧ Table.wf s.store.frames ∧ s.store.frames.length ≤ 384 ∧
      t.store.freeCells.drop 2046 = [0, 1] ∧ t.freeRecordCount = 384 := by decide +kernel

/-- States with frames that meet the laws of the store, and a step from each of them. -/
theorem test_witness_store_laws :
    let s := twoCellState (txRecord .ready) 5 { State.reset with pending := [.tick] }
    s.cellsKept ∧ s.chainsKept ∧ s.tablesKept ∧ ∃ t, step s = .next t := by
  refine ⟨twoCellState_cellsKept _ 5 _, ?_, ?_, ⟨_, rfl⟩⟩ <;> decide +kernel

/-! ## Segment Handler -/

/-- A TX_SEGMENT payload for line n with these flags, tag 5, declared length d and data. -/
def segment (n flags : Byte) (d : Nat) (data : List Byte) : List Byte := [n, flags, 5, 0] ++ octets16 d ++ data

/-- The segment such a payload holds. -/
def segmentIs (n : Byte) (first last urgent : Bool) (d : Nat) (data : List Byte) : Segment :=
  { line := n, first := first, last := last, urgent := urgent, tag := 5, declared := d, data := data }

/-- The parts of Offers, as one test. -/
abbrev offersTest (s : State) (p : List Byte) : Prop :=
  s.rstLow = false ∧ s.link.headStalled = false ∧ s.link.inbound.head? = some { kind := .txSegment, payload := p }

/-- Line 8 and a CLOSED line fail the first check; a free slot 0 takes the reject. -/
theorem test_witness_reject_line_closed :
    offersTest (offered .txSegment (segment 8 3 0 [0x41]) State.reset) (segment 8 3 0 [0x41]) ∧
      segmentOf (segment 8 3 0 [0x41]) = some (segmentIs 8 true true false 0 [0x41]) ∧
      lineField 8 = none ∧ lineField 7 = some 7 ∧ (State.reset.line 7).state ≠ .opened ∧
      Table.get State.reset.rejects 0 = none := by decide +kernel

/-- All sixteen reject slots in use. -/
def noSlots (s : State) : State :=
  { s with rejects := (List.range 16).map (fun k => (k, { tag := 1, line := 0, status := .length, reported := false })) }

/-- The other four checks at their boundaries, each with those before it passed; and no slot free. -/
theorem test_witness_reject_others :
    (let s := { withLine gapLine with tags := [(5, 0)] };
      (s.line 0).state = .opened ∧ (Table.get s.tags 5).isSome = true) ∧
    (let s := withLine { gapLine with config := { gapLine.config with limit := 0 } };
      (s.line 0).state = .opened ∧ Table.get s.tags 5 = none ∧ (s.line 0).config.limit ≤ (s.line 0).frameCount) ∧
    (let s := withLine gapLine;
      (s.line 0).state = .opened ∧ Table.get s.tags 5 = none ∧ (s.line 0).frameCount < (s.line 0).config.limit ∧
        segmentOf (segment 0 3 1025 [0x41]) = some (segmentIs 0 true true false 1025 [0x41])) ∧
    (let s := { withLine gapLine with recordReserve := 384 };
      (s.line 0).state = .opened ∧ Table.get s.tags 5 = none ∧ (s.line 0).frameCount < (s.line 0).config.limit ∧
        s.freeRecordCount ≤ s.recordReserve) ∧
    (∀ k, k < 16 → (Table.get (noSlots State.reset).rejects k).isSome = true) := by decide +kernel

/-- A first segment for a CLOSED line takes reject slot 0 and joins the Completion List (2.2). -/
theorem test_tx_segment_rejected :
    let t := after .txSegment (offered .txSegment (segment 3 3 0 [0x41]) State.reset)
    t.completion = [.reject 0] ∧ t.rejects = [(0, { tag := 5, line := 3, status := .lineClosed, reported := false })] ∧
      t.link.inbound = [] := by decide +kernel

/-- FirstPasses, from its seven parts. -/
theorem firstPasses {g : Segment} {s : State} {n : LineNo} (h1 : lineField g.line = some n) (h2 : (s.line n).state = .opened)
    (h3 : Table.get s.tags g.tag = none) (h4 : (s.line n).frameCount < (s.line n).config.limit) (h5 : g.declared ≤ 1024)
    (h6 : g.data.length ≤ 240) (h7 : s.recordReserve < s.freeRecordCount) : FirstPasses g s n := ⟨h1, h2, h3, h4, h5, h6, h7⟩

/-- A FIRST segment without LAST at the head, its line open; its frame can take record 0. -/
def firstState : State := offered .txSegment (segment 0 1 1024 [0x41]) (withLine gapLine)

/-- The record at the head stalls. -/
def stalled (s : State) : State := s.modLink (fun h => { h with headStalled := true })

theorem test_witness_first_passes :
    offersTest firstState (segment 0 1 1024 [0x41]) ∧
      segmentOf (segment 0 1 1024 [0x41]) = some (segmentIs 0 true false false 1024 [0x41]) ∧
      FirstPasses (segmentIs 0 true false false 1024 [0x41]) firstState 0 ∧ firstState.frame 0 = none ∧
      FirstPasses (segmentIs 0 true false false 1024 [0x41]) (stalled firstState) 0 := by
  refine ⟨by decide +kernel, by decide +kernel, firstPasses ?_ ?_ ?_ ?_ ?_ ?_ ?_, by decide +kernel,
    firstPasses ?_ ?_ ?_ ?_ ?_ ?_ ?_⟩ <;> decide +kernel

/-- A first segment for a CLOSED line that stalls: with a slot free, and with none. -/
theorem test_witness_stalled_segment :
    let s := stalled (offered .txSegment (segment 3 3 0 [0x41]) State.reset)
    s.link.headStalled = true ∧ s.rstLow = false ∧
      s.link.inbound.head? = some { kind := .txSegment, payload := segment 3 3 0 [0x41] } ∧
      lineField 3 = some 3 ∧ (s.line 3).state = .closed ∧ Table.get s.rejects 0 = none ∧
      (∀ k, k < 16 → (Table.get (noSlots s).rejects k).isSome = true) := by decide +kernel

/-- A stalled first segment is judged again at a tick: accepted, rejected, or stalled as before (R30). -/
theorem test_stalled_segment_at_tick :
    ((after .tick (stalled firstState)).frame 0).map FrameRecord.state = some .filling ∧
      (after .tick (stalled (offered .txSegment (segment 3 3 0 [0x41]) State.reset))).completion = [.reject 0] ∧
      (after .tick (noSlots (stalled (offered .txSegment (segment 3 3 0 [0x41]) State.reset)))).link.headStalled = true := by
  decide +kernel

/-- The largest segment and the smallest, with a declared length and without. -/
theorem test_witness_whole_frame :
    let s := offered .txSegment (segment 0 7 240 (List.replicate 240 0x55)) (withLine { gapLine with clear := false })
    offersTest s (segment 0 7 240 (List.replicate 240 0x55)) ∧
      segmentOf (segment 0 7 240 (List.replicate 240 0x55)) = some (segmentIs 0 true true true 240 (List.replicate 240 0x55)) ∧
      segmentOf (segment 0 3 0 [0x41]) = some (segmentIs 0 true true false 0 [0x41]) ∧ (s.line 0).state = .opened ∧
      Table.get s.tags 5 = none ∧ (s.line 0).frameCount < (s.line 0).config.limit ∧ s.recordReserve < s.freeRecordCount ∧
      s.store.frames = [] ∧ s.store.freeCells = List.range 2048 ∧ s.reserveFloor + 8 ≤ s.store.freeCells.length := by
  decide +kernel

/-- With line 0 open the frame of the segment is READY at the tail of its queue; CLEAR off under GATE_TX holds it there. -/
theorem test_tx_segment_stored :
    let l := { gapLine with clear := false, config := { gapLine.config with gateTx := true } }
    let t := after .txSegment (offered .txSegment (segment 0 3 2 [0x41, 0x42]) (withLine l));
    (t.frame 0).map (fun r => (r.state, r.stored, r.tag, frameOctets t r)) = some (.ready, 2, 5, [0x41, 0x42]) ∧
      (t.line 0).tx.normal = [0] ∧ (t.line 0).tx.state = .held ∧ t.store.freeCells.head? = some 1 := by decide +kernel

/-- A frame record in each state a later segment can find, its tag mapped. -/
def tagged (r : FrameRecord) (s : State) : State := { framed { r with tag := 5 } s with tags := [(5, 0)] }

/-- The positions of the rows of Table 2.2: stray, data that fits up to the bound, data that does not, a refused cell. -/
theorem test_witness_later_segment :
    offersTest (offered .txSegment [0, 0, 5, 0, 0] State.reset) [0, 0, 5, 0, 0] ∧
    (let s := offered .txSegment (segment 0 2 0 [0x41]) (tagged (txRecord .filling) (withLine gapLine));
      offersTest s (segment 0 2 0 [0x41]) ∧
        segmentOf (segment 0 2 0 [0x41]) = some (segmentIs 0 false true false 0 [0x41]) ∧
        segmentOf (segment 0 0 0 []) = some (segmentIs 0 false false false 0 []) ∧ Table.get s.tags 5 = some 0 ∧
        s.frame 0 = some { txRecord .filling with tag := 5 } ∧
        (appendOctets .transmitData 0 [0x41] s).2 = true ∧
        (appendOctets .transmitData 0 [0x41] { s with reserveFloor := 2048 }).2 = false) ∧
    (∀ x ∈ [FrameState.ready, .sending, .discarding],
      (tagged (txRecord x) (withLine gapLine)).frame 0 = some { txRecord x with tag := 5 }) := by decide +kernel

/-- The transmitter's view of the rows of Table 2.3: complete and incomplete, queued and SENDING, a close in FLUSH or not. -/
theorem test_witness_failed_frame :
    (∀ x ∈ [FrameState.filling, .ready, .sending, .done], (framed (txRecord x) State.reset).frame 0 = some (txRecord x)) ∧
      (let l := { gapLine with state := .closing, close := { gapLine.close with txMode := .flush } };
        ((framed (txRecord .filling) (withLine l)).line 0).state = .closing ∧
          ((framed (txRecord .filling) (withLine l)).line 0).close.txMode = .flush) := by decide +kernel

/-! ## Line Transmitter -/

/-- An open line whose NORMAL queue holds frame 0. -/
def queueLine : Line := txOf (fun k => { k with normal := [0] }) gapLine

/-- The candidate is judged: READY at the head of the NORMAL queue; CLEAR off under GATE_TX; the turnaround timer running; a
pending break. -/
theorem test_witness_selection :
    (let s := framed (txRecord .ready) (withLine queueLine);
      candidateFrame s (s.line 0) = some 0 ∧ (s.line 0).tx.state = .idle ∧ (s.line 0).tx.pendingBreak = none ∧
        (s.line 0).held = false ∧ (s.line 0).tx.normal.head? = some 0 ∧ s.frame 0 = some (txRecord .ready)) ∧
    (let l := { queueLine with clear := false, config := { queueLine.config with gateTx := true } };
      l.config.gateTx = true ∧ l.clear = false) ∧
    (txOf (fun k => { k with turnaroundTimer := some 1 }) (openLine (.gap .none 1 2) (.half 5) .discard)).held = true ∧
    (let l := txOf (fun k => { k with pendingBreak := some { tag := 1, duration := 5 } }) gapLine;
      l.tx.pendingBreak = some { tag := 1, duration := 5 } ∧ l.held = false) := by decide +kernel

theorem test_candidate_is_eligible_head :
    let s := framed (txRecord .ready) (withLine queueLine)
    IsCandidate s (s.line 0) 0 := by
  refine Or.inr ⟨?_, txRecord .ready, rfl, rfl, Or.inl rfl⟩
  rintro j ⟨r, h, -⟩
  cases h

/-- A line whose transmitter is in this state with current frame 0. -/
def sendingLine (x : TxState) : Line := txOf (fun k => { k with state := x, current := some 0 }) gapLine

/-- The rows of Table 3.3: an octet left, the chain used up and complete, used up and incomplete, an outcome fixed. -/
theorem test_witness_octet_boundary :
    (let s := framed { txRecord .sending with chain := [{ cell := 0, fill := 1 }], stored := 1 } (withLine (sendingLine .data));
      s.rstLow = false ∧ (s.line 0).tx.state = .data ∧ (s.line 0).tx.current = some 0 ∧
        s.frame 0 = some { txRecord .sending with chain := [{ cell := 0, fill := 1 }], stored := 1 } ∧ (s.line 0).tx.readPos < 1) ∧
    (let s := framed { txRecord .sending with complete := true } (withLine (sendingLine .data));
      s.frame 0 = some { txRecord .sending with complete := true } ∧ (txRecord .sending).stored ≤ (s.line 0).tx.readPos) := by
  decide +kernel

/-- An underrun: the stored octets are used up and the frame is incomplete (Table 3.3). -/
theorem test_data_octet_boundary_underrun :
    let t := after (.dataOctetBoundary 0) (framed (txRecord .sending) (withLine (sendingLine .data)))
    (t.frame 0).map FrameRecord.outcome = some (some .underrun) ∧ (t.line 0).tx.state = .trailer ∧
      (t.line 0).tx.trailer = 0x0000#16 := by decide +kernel

theorem test_witness_frame_end :
    (let s := framed { txRecord .sending with complete := true } (withLine (sendingLine .trailer));
      s.rstLow = false ∧ (s.line 0).tx.state = .trailer ∧ (s.line 0).tx.current = some 0 ∧
        s.frame 0 = some { txRecord .sending with complete := true } ∧ (txRecord .sending).outcome = none) ∧
    (let s := framed { txRecord .sending with outcome := some .underrun } (withLine (sendingLine .trailer));
      s.frame 0 = some { txRecord .sending with outcome := some .underrun } ∧ (txRecord .sending).complete = false) ∧
    (let l := { sendingLine .trailer with state := .closing, close := { gapLine.close with txMode := .flush } };
      l.state = .closing ∧ l.close.txMode = .flush) := by decide +kernel

/-- A sent frame ends with OK, is counted, and joins the Completion List (Table 3.5). -/
theorem test_frame_end_ok :
    let t := after (.frameEnd 0) (framed { txRecord .sending with complete := true } (withLine (sendingLine .trailer)))
    (t.frame 0).map (fun r => (r.state, r.outcome)) = some (.done, some .ok) ∧ t.completion = [.frame 0] ∧
      (t.line 0).counters.txFrames = 1 ∧ (t.line 0).tx.state = .gap := by decide +kernel

theorem test_witness_leadin_end :
    (let s := framed (txRecord .sending) (withLine (sendingLine .leadin));
      s.rstLow = false ∧ (s.line 0).tx.state = .leadin ∧ (s.line 0).tx.current = some 0 ∧ s.frame 0 = some (txRecord .sending) ∧
        (txRecord .sending).outcome = none) ∧
    (framed { txRecord .sending with outcome := some .cancelled } (withLine (sendingLine .leadin))).frame 0 =
      some { txRecord .sending with outcome := some .cancelled } := by decide +kernel

theorem test_witness_gap_end :
    let s := withLine (txOf (fun k => { k with state := .gap }) (openLine (.gap .none 1 2) (.half 5) .muted))
    s.rstLow = false ∧ (s.line 0).tx.state = .gap ∧ (s.line 0).halfDuplex = true ∧ (s.line 0).rx.state = .muted := by
  decide +kernel

/-- In half duplex the mute ends with the GAP: the receiver listens again (R88, R74). -/
theorem test_gap_end_unmutes :
    let t := after (.gapEnd 0) (withLine (txOf (fun k => { k with state := .gap }) (openLine (.gap .none 1 2) (.half 5) .muted)))
    (t.line 0).tx.state = .idle ∧ (t.line 0).rx.state = .discard := by decide +kernel

theorem test_witness_line_timers :
    (let s := withLine (txOf (fun k => { k with
        state := .breaking, breakTimer := some 0, pendingBreak := some { tag := 7, duration := 5 } }) gapLine);
      s.rstLow = false ∧ (s.line 0).tx.state = .breaking ∧ (s.line 0).tx.breakTimer = some 0 ∧
        (s.line 0).tx.pendingBreak = some { tag := 7, duration := 5 }) ∧
    ((withLine (txOf (fun k => { k with turnaroundTimer := some 0 }) gapLine)).line 0).tx.turnaroundTimer = some 0 := by
  decide +kernel

/-- The break ends with the deferred reply OK (R67). -/
theorem test_break_timer_expiry :
    let t := after (.breakTimerExpiry 0) (withLine (txOf (fun k => { k with
      state := .breaking, breakTimer := some 0, pendingBreak := some { tag := 7, duration := 5 } }) gapLine))
    t.replies.map ReplyEntry.reply = [{ code := 0x14#8, tag := 7#8, status := .ok, results := [] }] ∧
      (t.line 0).tx.state = .gap := by decide +kernel

/-- Ages at the lifetime and one below it; lifetime 0. -/
theorem test_witness_expiry :
    let l := { txOf (fun k => { k with expiryDue := true }) queueLine with config := { gapLine.config with lifetime := 10 } }
    let s := framed { txRecord .filling with age := 10 } (withLine l)
    s.rstLow = false ∧ (s.line 0).tx.expiryDue = true ∧ (s.line 0).config.lifetime ≠ 0 ∧
      (s.frame 0).any (fun r => (s.line 0).config.lifetime ≤ r.age) = true ∧ queueLine.config.lifetime = 0 := by decide +kernel

/-- A frame whose age has reached the lifetime expires; one tick younger it stays (R40). -/
theorem test_expiry_at_lifetime :
    let l := { txOf (fun k => { k with expiryDue := true }) queueLine with config := { gapLine.config with lifetime := 10 } }
    ((after (.expiry 0) (framed { txRecord .filling with age := 10 } (withLine l))).frame 0).map
        (fun r => (r.state, r.outcome)) = some (.discarding, some .expired) ∧
      ((after (.expiry 0) (framed { txRecord .filling with age := 9 } (withLine l))).frame 0).map
        (fun r => (r.state, r.outcome)) = some (.filling, none) := by decide +kernel

theorem test_witness_drain_timer :
    let s := framed (txRecord .ready) (withLine { queueLine with state := .closing, close := { gapLine.close with drainTimer := some 0 } })
    s.rstLow = false ∧ (s.line 0).state = .closing ∧ (s.line 0).close.drainTimer = some 0 ∧ s.frame 0 = some (txRecord .ready) ∧
      Table.wf s.tags := by decide +kernel

/-- The drain time is over: the queued frame is flushed and the line reaches CLOSED (R120, R122). -/
theorem test_drain_timer_expiry :
    let t := after (.drainTimerExpiry 0) (framed (txRecord .ready) (withLine { queueLine with
      state := .closing, tx := { queueLine.tx with state := .held }, rx := .reset
      close := { gapLine.close with drainTimer := some 0 } }))
    (t.frame 0).map (fun r => (r.state, r.outcome)) = some (.done, some .flushed) ∧ (t.line 0).close.flushed = 1 ∧
      (t.line 0).state = .closed ∧ (t.line 0).close.reportPending = true := by decide +kernel

/-- A line of each mode of the outputs; a frame held by CLEAR alone raises REQUEST in FRAME mode (R69, R70); the
octets of the RESYNC after reset (Tables 8.2 and 10.2; CRC worked by hand). -/
theorem test_witness_output_pins :
    (let l := { queueLine with clear := false, tx := { queueLine.tx with state := .held }
                               config := { gapLine.config with gateTx := true, requestMode := .frame, duplex := .half 3 } };
      let s := framed (txRecord .ready) (withLine l);
      s.rstLow = false ∧ l.state ≠ .closed ∧ l.config.requestMode = .frame ∧ s.lreq 0 = true ∧ s.ldrv 0 = false) ∧
    (let s := withLine gapLine; s.lreq 0 = true ∧ s.ldrv 0 = true ∧ s.lclkDriven 0 = false ∧ s.ltxd 0 = .marking) ∧
    ((withLine (openLine (.sync .internal 0x7E81 2) .full .seek)).lclkDriven 0 = true) ∧
    (withLine (sendingLine .trailer)).ltxd 0 = .crcOctets 0 0 ∧ (withLine gapLine).lreq 1 = false ∧
    (withLine (sendingLine .data)).ltxd 0 = .betweenOctets ∧ (sendingLine .gap).tx.state = .gap ∧
    State.reset.htxd = some [0xC3, 0x84, 0, 0, 8, 0, 0, 0xBC, 0xDB] := by decide +kernel

/-- A sync line in each state that sends, with frame 0 of declared length 258. -/
def syncSending (x : TxState) : State :=
  framed { txRecord .sending with declared := some 258 } (withLine (txOf (fun k => { k with state := x, current := some 0 }) syncLine))

theorem test_witness_sync_output :
    syncLine.config.framing = .sync .line 0x7E81 2 ∧ syncLine.tx.state = .idle ∧
      (∀ x ∈ [TxState.leadin, .data, .trailer, .gap], ((syncSending x).line 0).tx.state = x) ∧
      ((syncSending .data).line 0).tx.octet = none ∧ ((syncSending .data).line 0).tx.current = some 0 ∧
      (syncSending .data).frame 0 = some { txRecord .sending with declared := some 258 } := by decide +kernel

/-- Pattern 7E81h goes out high octet first, most significant bit first, twice as the lead-in of 2, once to close; the length
258 is 01h 02h (R60, R61). -/
theorem test_sync_output_bits :
    let pattern := [false, true, true, true, true, true, true, false, true, false, false, false, false, false, false, true]
    (withLine syncLine).ltxdBits 0 = pattern ∧ (syncSending .leadin).ltxdBits 0 = pattern ++ pattern ∧
      (syncSending .gap).ltxdBits 0 = pattern ∧ (syncSending .data).ltxd 0 = .lengthField 1 2 := by decide +kernel

/-- A lead-in whose frame has been cancelled carries the pattern in progress and no other (Table 3.4). -/
theorem test_aborted_leadin :
    let s := framed { txRecord .sending with outcome := some .cancelled } (syncSending .leadin)
    (s.line 0).tx.state = .leadin ∧ (s.line 0).tx.current = some 0 ∧ (s.frame 0).any (fun r => r.outcome ≠ none) = true ∧
      s.ltxdBits 0 = (withLine syncLine).ltxdBits 0 ∧ (s.ltxdBits 0).length = 16 := by decide +kernel

/-- C3h as a character of the host link: start bit, 1 1 0 0 0 0 1 1, stop bit; a stop bit sampled spacing is marked (R149). -/
theorem test_host_character :
    hostCharacter 0xC3 = [false, true, true, false, false, false, false, true, true, true] ∧
      readHostCharacter [false, true, false, false, false, false, false, false, false, false] = some (1, true) ∧
      State.reset.htxdBits.length = 90 := by decide +kernel

/-! ## Line Receiver -/

theorem test_witness_character_start :
    (let s := withLine gapLine;
      s.rstLow = false ∧ (s.line 0).isSync = false ∧ (s.line 0).rx.state = .idle ∧ s.frame 0 = none ∧
        s.store.frames.length < 384) ∧ 384 ≤ (allRecords (withLine gapLine)).store.frames.length ∧
      (let s := withLine (openLine (.gap .even 1 2) .full .discard);
        s.rstLow = false ∧ (s.line 0).isSync = false ∧ (s.line 0).rx.state = .discard) := by decide +kernel

/-- Without a free record the frame is lost (R76). -/
theorem test_character_start_norec :
    let t := after (.characterStart 0) (allRecords (withLine gapLine))
    (t.line 0).rx.state = .discard ∧ (t.line 0).rx.pendingLoss = true ∧ (t.line 0).counters.rxLost = 1 := by decide +kernel

/-- The state with a character in progress on line 0. -/
def midCharacter (s : State) : State := s.modLine 0 (Line.readTo .inProgress)

/-- A gap-framing line in ASSEMBLING with frame 0 and this many octets received. -/
def assemblingLine (count : Nat) : Line := rxOf (fun k => { k with current := some 0, count := count }) (openLine (.gap .even 1 2) .full .assembling)

theorem test_witness_character_complete :
    (let s := midCharacter (framed (rxRecord .assembling) (withLine (assemblingLine 1026)));
      (s.line 0).rx.character = .inProgress ∧ s.rstLow = false ∧ (s.line 0).isSync = false ∧ (s.line 0).rx.state = .assembling ∧ (s.line 0).rx.current = some 0 ∧
        (s.line 0).rx.count = 1026) ∧
    (let s := midCharacter (withLine (openLine (.gap .even 1 2) .full .discard));
      (s.line 0).rx.state = .discard ∧ (s.line 0).rx.character = .inProgress) ∧
    (let s := midCharacter (framed (rxRecord .assembling) (withLine (assemblingLine 1025)));
      (appendOctet .receiveData 0 0x41 s).isSome = true ∧
        (appendOctet .receiveData 0 0x41 { s with store := { s.store with freeCells := [] } }).isNone = true) := by decide +kernel

/-- The 1027th octet makes the frame LONG; under EVEN a parity bit that leaves an odd number of ones is marked (R75, R76). -/
theorem test_character_complete_long_and_parity :
    (let t := after (.characterComplete 0 (sampled 1 0 0 0 0 0 1 0) false true) (midCharacter <| framed (rxRecord .assembling) (withLine (assemblingLine 1026)));
      (t.line 0).rx.state = .discard ∧ (t.line 0).counters.rxErrors = 1 ∧ t.frame 0 = none) ∧
    (let t := after (.characterComplete 0 (sampled 1 1 0 0 0 0 1 0) false true) (midCharacter <| framed (rxRecord .assembling) (withLine (assemblingLine 0)));
      (t.line 0).rx.parityError = true ∧ (t.line 0).rx.framingError = false ∧ (t.line 0).rx.count = 1 ∧
        (t.frame 0).map (frameOctets t) = some [0x43]) := by decide +kernel

/-- A character that has started in DISCARD is abandoned when CARRIER off gates the receiver: it does not complete after the return
of CARRIER, and no break begins with it; nor does a gap pass within one (R75, R87). -/
theorem test_character_abandoned :
    let s := withLine (let l := openLine (.gap .even 1 2) .full .discard; { l with config := { l.config with gateRx := true } })
    let started := after (.characterStart 0) s
    let gated := after (.carrierChange 0 true) (after (.carrierChange 0 false) started)
    let broken (u : State) : RxState :=
      ((after (.breakDetected 0) (after (.characterComplete 0 (sampled 0 0 0 0 0 0 0 0) false false) u)).line 0).rx.state
    broken started = .breaking ∧ (gated.line 0).rx.state = .discard ∧ broken gated = .discard ∧
      ((after (.receiveGap 0) started).line 0).rx.state = .discard ∧
      ((after (.receiveGap 0) s).line 0).rx.state = .idle := by decide +kernel

/-- 35h comes as start bit, 1 0 1 0 1 1 0 0, parity bit, stop bit; its four ones are even in number (R59, R75). -/
theorem test_character_samples :
    (∀ k : Fin 8, (0x35#8).getLsbD k.val = (sampled 1 0 1 0 1 1 0 0)[k]) ∧
      readCharacter .even [false, true, false, true, false, true, true, false, false, false, true] =
        some { octet := 0x35, framingError := false, parityError := false } ∧
      readCharacter .odd [false, true, false, true, false, true, true, false, false, false, false] =
        some { octet := 0x35, framingError := true, parityError := true } ∧
      readCharacter .none [false, true, false, true, false, true, true, false, false, false, true] = none := by decide +kernel

/-- A frame of three octets, 41h and its line CRC, in cell 0. -/
def receivedThree (deliver : Bool) (octets : List Byte) : State :=
  let l := { assemblingLine octets.length with config := { gapLine.config with deliverErrors := deliver } }
  (appendOctets .receiveData 0 octets (framed (rxRecord .assembling) (withLine l))).1

theorem test_witness_receive_gap :
    ((withLine (openLine (.gap .none 1 2) .full .discard)).line 0).rx.state = .discard ∧
    (let s := receivedThree false (0x41 :: highFirst (lineCrc [0x41]).toNat);
      s.rstLow = false ∧ (s.line 0).isSync = false ∧ (s.line 0).rx.state = .assembling ∧ (s.line 0).rx.current = some 0 ∧
        (s.frame 0).isSome = true ∧ (s.line 0).rx.count = 3 ∧ (s.line 0).rx.character ≠ .inProgress ∧
        (s.frame 0).any (fun r => gapCrcPasses (frameOctets s r)) = true) ∧
    (let s := receivedThree true [0x41, 0x00, 0x00];
      (s.line 0).config.deliverErrors = true ∧ (s.frame 0).any (fun r => !gapCrcPasses (frameOctets s r)) = true) := by
  decide +kernel

/-- A good frame is trimmed, numbered and queued; one with a wrong CRC is discarded, or queued with outcome CRC (R86, R93). -/
theorem test_receive_gap :
    (let t := after (.receiveGap 0) (receivedThree false (0x41 :: highFirst (lineCrc [0x41]).toNat));
      (t.frame 0).map (fun r => (r.state, r.outcome, frameOctets t r)) = some (.queued, some .ok, [0x41]) ∧
        (t.line 0).rx.queue = [0] ∧ (t.line 0).rx.nextNumber = 1) ∧
    (let t := after (.receiveGap 0) (receivedThree false [0x41, 0x00, 0x00]);
      t.frame 0 = none ∧ (t.line 0).counters.rxErrors = 1) ∧
    (let t := after (.receiveGap 0) (receivedThree true [0x41, 0x00, 0x00]);
      (t.frame 0).map (fun r => (r.state, r.outcome)) = some (.queued, some .crc)) := by decide +kernel

/-- The state with line 0 spacing since a null character with a framing error. -/
def spacingSince (s : State) : State := s.modLine 0 (Line.readTo .heldSpacing)

theorem test_witness_break :
    (let s := spacingSince (framed (rxRecord .assembling) (withLine (assemblingLine 2)));
      s.rstLow = false ∧ (s.line 0).isSync = false ∧ (s.line 0).rx.state = .assembling ∧ (s.line 0).rx.current = some 0 ∧
        (s.line 0).rx.character = .heldSpacing) ∧
      ((spacingSince (withLine gapLine)).line 0).rx.state = .idle ∧
      ((spacingSince (withLine gapLine)).line 0).rx.character = .heldSpacing ∧
      ((withLine gapLine).line 0).rx.character ≠ .heldSpacing ∧
      ((withLine (openLine (.gap .none 1 2) .full .breaking)).line 0).rx.state = .breaking ∧
      ((withLine gapLine).line 0).isSync = false := by decide +kernel

/-- A break discards a frame in assembly and counts it when it holds more than the break's own character (R79). -/
theorem test_break_detected :
    let broken (count : Nat) : Line :=
      (after (.breakDetected 0) (spacingSince (framed (rxRecord .assembling) (withLine (assemblingLine count))))).line 0
    (broken 1).counters.rxErrors = 0 ∧ (broken 2).counters.rxErrors = 1 ∧ (broken 2).rx.state = .breaking := by decide +kernel

/-- Under EVEN a break may begin with a character whose 8 data bits, parity bit and stop bit are all spacing, and with no other;
the return to marking before the detection prevents it (R79). -/
theorem test_break_begins :
    let s := withLine (openLine (.gap .even 1 2) .full .discard)
    let behind (data : OctetBits) (parityBit stopBit : Bool) : RxState :=
      ((after (.breakDetected 0) (after (.characterComplete 0 data parityBit stopBit) (after (.characterStart 0) s))).line 0).rx.state
    behind (sampled 0 0 0 0 0 0 0 0) false false = .breaking ∧ behind (sampled 0 0 0 0 0 0 0 0) false true = .discard ∧
      behind (sampled 0 0 0 0 0 0 0 0) true false = .discard ∧ behind (sampled 0 0 0 0 0 0 0 1) false false = .discard ∧
      ((after (.breakDetected 0) (after (.lineReturnsToMarking 0) (spacingSince s))).line 0).rx.state = .discard := by
  decide +kernel

/-- A character start ends the spacing that a null character has begun, in DISCARD as in IDLE (R75, R79). -/
theorem test_character_start_ends_spacing :
    let behind (x : RxState) : RxState :=
      ((after (.breakDetected 0) (after (.characterStart 0)
        (spacingSince (withLine (openLine (.gap .even 1 2) .full x))))).line 0).rx.state
    behind .idle = .assembling ∧ behind .discard = .discard := by decide +kernel

/-- A sync line in this receiver state. -/
def syncIn (x : RxState) : Line := openLine (.sync .line 0x7E81 2) .full x

/-- Lengths 0, 1, 1024 and 1025 of a pair, and the pattern. -/
theorem test_witness_pair :
    ((withLine (syncIn .seek)).line 0).rx.state = .seek ∧ ((withLine (syncIn .seek)).line 0).isSync = true ∧
    (let s := withLine (syncIn .synced);
      s.rstLow = false ∧ (s.line 0).config.framing = .sync .line 0x7E81 2 ∧ (s.line 0).rx.state = .synced ∧
        (s.line 0).rx.patternRequired = false ∧ s.frame 0 = none ∧ s.store.frames.length < 384) ∧
    (∀ k : Fin 8, (0x04#8).getLsbD (7 - k.val) = (sampled 0 0 0 0 0 1 0 0)[k]) ∧
    pairValue 0x7E 0x81 = 0x7E81 ∧ pairValue 0x00 0x00 = 0 ∧ pairValue 0x00 0x01 = 1 ∧ pairValue 0x04 0x00 = 1024 ∧
    pairValue 0x04 0x01 = 1025 ∧ 384 ≤ (allRecords (withLine (syncIn .synced))).store.frames.length := by decide +kernel

/-- A length of 1024 begins a frame, one of 1025 does not (Table 4.4). -/
theorem test_pair_length_bound :
    ((after (.pair 0 (sampled 0 0 0 0 0 1 0 0) (sampled 0 0 0 0 0 0 0 0)) (withLine (syncIn .synced))).line 0).rx.state = .assembling ∧
      ((after (.pair 0 (sampled 0 0 0 0 0 1 0 0) (sampled 0 0 0 0 0 0 0 1)) (withLine (syncIn .synced))).line 0).rx.state = .seek := by decide +kernel

/-- The 16 bits of pattern 7E81h, most significant first. -/
def patternBits : List Bool :=
  [false, true, true, true, true, true, true, false, true, false, false, false, false, false, false, true]

theorem test_witness_pattern_match :
    (withLine (syncIn .seek)).rstLow = false ∧ ((withLine (syncIn .seek)).line 0).config.framing = .sync .line 0x7E81 2 ∧
      (List.range 16).map (fun k => (0x7E81).testBit (15 - k)) = patternBits ∧
      (∀ k, k < 3 → ([true, false, true] ++ patternBits).drop k ≠ patternBits ∧
        (([true, false, true] ++ patternBits).drop k).take 16 ≠ patternBits) := by decide +kernel

/-- The search finds the pattern after every number of bits, and in this order of bits alone; it ends at the first match (R81). -/
theorem test_pattern_match :
    let seek (bits : List Bool) := ((after (.patternMatch { line := 0, bits := bits }) (withLine (syncIn .seek))).line 0).rx.state
    seek patternBits = .synced ∧ seek ([true, false, true] ++ patternBits) = .synced ∧ seek patternBits.reverse = .seek ∧
      seek (patternBits ++ patternBits) = .seek ∧ seek (patternBits.drop 1) = .seek := by decide +kernel

/-- A sync line in ASSEMBLING with this many octets to come, its CRC register and first CRC octet. -/
def syncAssembling (toCome : Nat) (crc : Crc) (high : Byte) : Line :=
  rxOf (fun k => { k with current := some 0, toCome := toCome, crc := crc, crcHigh := high }) (syncIn .assembling)

theorem test_witness_sync_octet :
    (let s := withLine (rxOf (fun k => { k with toCome := 1 }) (syncIn .discard));
      s.rstLow = false ∧ (s.line 0).isSync = true ∧ (s.line 0).rx.state = .discard) ∧
    (let s := framed (rxRecord .assembling) (withLine (syncAssembling 3 0xFFFF 0));
      (s.line 0).rx.state = .assembling ∧ (s.line 0).rx.current = some 0 ∧ 2 < (s.line 0).rx.toCome ∧
        (appendOctet .receiveData 0 0x41 s).isSome = true ∧
        (appendOctet .receiveData 0 0x41 { s with store := { s.store with freeCells := [] } }).isNone = true) ∧
    (syncAssembling 2 0xFFFF 0).rx.toCome = 2 ∧ (syncAssembling 1 0xFFFF 0).rx.toCome < 2 ∧
    (∀ k : Fin 8, (0x34#8).getLsbD (7 - k.val) = (sampled 0 0 1 1 0 1 0 0)[k]) ∧
    highFirst (0x1234#16).toNat = [0x12, 0x34] := by decide +kernel

/-- The second CRC octet ends a sync frame, queued with OK or discarded; the next pair must be the pattern (R83, R85). -/
theorem test_sync_octet_ends_frame :
    (let t := after (.syncOctet 0 (sampled 0 0 1 1 0 1 0 0)) (framed (rxRecord .assembling) (withLine (syncAssembling 1 0x1234 0x12)));
      (t.frame 0).map (fun r => (r.state, r.outcome)) = some (.queued, some .ok) ∧ (t.line 0).rx.state = .synced ∧
        (t.line 0).rx.patternRequired = true) ∧
    (let t := after (.syncOctet 0 (sampled 0 0 1 1 0 1 0 1)) (framed (rxRecord .assembling) (withLine (syncAssembling 1 0x1234 0x12)));
      t.frame 0 = none ∧ (t.line 0).counters.rxErrors = 1) := by decide +kernel

/-- A state whose line 0 has frame 1 as its receive queue, at its quota, and frame 0 completed. -/
def fullQueue (tail : FrameState) : State :=
  (framed (rxRecord .assembling) (withLine (rxOf (fun k => { k with queue := [1] })
    { gapLine with config := { gapLine.config with quota := 1 } }))).putFrame 1 (rxRecord tail)

theorem test_witness_placing :
    (framed (rxRecord .assembling) (withLine gapLine)).frame 0 = some (rxRecord .assembling) ∧
      ((withLine gapLine).line 0).rx.queue.length < ((withLine gapLine).line 0).config.quota ∧
    (∀ x ∈ [FrameState.queued, .delivering, .sent],
      (fullQueue x).frame 0 = some (rxRecord .assembling) ∧ (fullQueue x).frame 1 = some (rxRecord x) ∧
        ((fullQueue x).line 0).config.quota ≤ ((fullQueue x).line 0).rx.queue.length ∧
        ((fullQueue x).line 0).rx.queue.getLast? = some 1) := by decide +kernel

/-- At the quota the tail gives way unless its delivery has begun (Table 4.7). -/
theorem test_placing_at_quota :
    (((placeFrame 0 0 (fullQueue .queued)).line 0).rx.queue = [0] ∧ (placeFrame 0 0 (fullQueue .queued)).frame 1 = none) ∧
      ((placeFrame 0 0 (fullQueue .delivering)).line 0).rx.queue = [1] ∧
        (placeFrame 0 0 (fullQueue .delivering)).frame 0 = none := by decide +kernel

theorem test_witness_input_pins :
    ((withLine gapLine).line 0).clear ≠ false ∧ ((withLine gapLine).line 0).carrier ≠ false ∧
    (let l := { assemblingLine 1 with config := { gapLine.config with gateRx := true } };
      l.config.gateRx = true ∧ l.rx.state = .assembling ∧ l.rx.current = some 0) ∧
    (let l := { openLine (.gap .none 1 2) .full .gated with carrier := false, config := { gapLine.config with gateRx := true } };
      l.carrier ≠ true ∧ l.rx.state = .gated) := by decide +kernel

/-- Under GATE_RX a frame in assembly is discarded and counted when CARRIER goes off (R87). -/
theorem test_carrier_change_gates :
    let l := { assemblingLine 1 with config := { gapLine.config with gateRx := true } }
    let t := after (.carrierChange 0 false) (framed (rxRecord .assembling) (withLine l))
    (t.line 0).rx.state = .gated ∧ t.frame 0 = none ∧ (t.line 0).counters.rxErrors = 1 := by decide +kernel

/-! ## Conditions -/

/-- A latched group whose snapshot is old, and a FREE one. -/
theorem test_witness_conditions :
    (let s := withLine { gapLine with group := { gapLine.group with latched := true } };
      (s.line 0).group.latched = true ∧ (s.line 0).state ≠ .closed ∧ (s.line 0).live ≠ (s.line 0).group.snapshot) ∧
    ((withLine gapLine).line 0).group.latched = false ∧
    ((withLine gapLine).line 0).live ≠ ((withLine gapLine).line 0).group.snapshot := by decide +kernel

/-! ## Commands -/

/-- The state with a COMMAND of this code, tag and parameters at the head. -/
def commanded (c : CommandCode) (tag : Byte) (ps : List Byte) (s : State) : State := offered .command (c.octet :: tag :: ps) s

/-- Whatever its code, tag and parameters, a command at the head of a state with a free reply place is executed. -/
theorem commanded_executes (c : CommandCode) (tag : Byte) (ps : List Byte) {s : State} (h1 : s.rstLow = false)
    (h2 : s.link.headStalled = false) (h3 : s.occupied < 16) : (commanded c tag ps s).Executes c tag ps := ⟨h1, h2, h3, rfl⟩

/-- Such a state: line 0 opened as given. -/
theorem withLine_executes (c : CommandCode) (tag : Byte) (ps : List Byte) (l : Line) (h : (withLine l).occupied < 16) :
    (commanded c tag ps (withLine l)).Executes c tag ps := commanded_executes c tag ps rfl rfl h

/-- The replies of a state, by status and results. -/
def answers (s : State) : List (ReplyStatus × List Byte) := s.replies.map (fun e => (e.reply.status, e.reply.results))

theorem test_witness_ack_condition :
    (commanded .ackCondition 1 [7] State.reset).Executes .ackCondition 1 [7] ∧
    (commanded .ackCondition 1 [8] State.reset).Executes .ackCondition 1 [8] ∧
    (withLine { gapLine with group := { gapLine.group with latched := true } }).occupied < 16 ∧ (8#8).toNat = 8 ∧
    (7 : LineNo).val = (7#8).toNat := by
  refine ⟨commanded_executes _ _ _ rfl rfl ?_, commanded_executes _ _ _ rfl rfl ?_, ?_⟩ <;> decide +kernel

/-- A LATCHED group is compared again: it latches the new values; an unknown line is refused (R101). -/
theorem test_ack_condition :
    let l := { gapLine with
      config := { gapLine.config with reportConditions := true }, group := { gapLine.group with latched := true } }
    let t := after .ackCondition (commanded .ackCondition 1 [0] (withLine l))
    (t.line 0).group.latched = true ∧ (t.line 0).group.snapshot = gapLine.live ∧ (t.line 0).group.reportPending = true ∧
      answers t = [(.ok, [])] ∧
      answers (after .ackCondition (commanded .ackCondition 1 [8] State.reset)) = [(.badLine, [])] := by decide +kernel

/-- OPEN_LINE parameters after the line number, every one at the low end of its range. -/
def lowParams : List Byte := [0, 0, 0, 0, 1, 2, 0, 0, 0, 0, 0, 0, 1, 1, 1, 0, 0, 0]

/-- Every one at the high end of its range, in sync framing and half duplex. -/
def highParams : List Byte := [1, 13, 1, 9, 9, 0, 0xFE, 0xFF, 15, 1, 255, 0xFF, 32, 64, 15, 0xFF, 0xFF, 32]

/-- The ends of the ranges are in range, the values beyond them are not (Table 6.2). -/
theorem test_open_line_ranges :
    (openFields lowParams).isSome = true ∧ (openFields highParams).isSome = true ∧
      openFields (lowParams.set 4 3) = none ∧ openFields (lowParams.set 5 17) = none ∧ openFields (highParams.set 8 1) = none ∧
      openFields (highParams.set 6 0xFF) = none ∧ openFields (lowParams.set 15 9) = none ∧
      (openFields (lowParams.set 15 10)).isSome = true ∧ openFields (highParams.set 12 33) = none ∧
      openFields (highParams.set 1 14) = none ∧ openFields (lowParams.set 3 3) = none := by decide +kernel

theorem test_witness_open_line :
    (commanded .openLine 1 (0 :: lowParams) State.reset).Executes .openLine 1 (0 :: lowParams) ∧ lowParams.length = 18 ∧
    openFields (lowParams.set 4 0) = none ∧ (openFields lowParams).isSome = true ∧
    (State.reset.line 0).state = .closed ∧ (State.reset.line 0).close.reportPending = false ∧
    ((withLine gapLine).line 0).state ≠ .closed ∧ (withLine gapLine).occupied < 16 := by
  refine ⟨commanded_executes _ _ _ rfl rfl ?_, ?_⟩ <;> decide +kernel

/-- A line opens with its transmitter in IDLE, its receiver in DISCARD and its levels in the snapshot (R112). -/
theorem test_open_line :
    let t := after .openLine (commanded .openLine 1 (0 :: lowParams) State.reset)
    (t.line 0).state = .opened ∧ (t.line 0).tx.state = .idle ∧ (t.line 0).rx.state = .discard ∧
      (t.line 0).config.framing = .gap .none 1 2 ∧ answers t = [(.ok, [])] := by decide +kernel

theorem test_witness_set_line :
    (∀ ps, (commanded .setLine 1 ps (withLine gapLine)).Executes .setLine 1 ps) ∧
    (let s := withLine (rxOf (fun k => { k with queue := [1] }) (txOf (fun k => { k with normal := [0] }) gapLine));
      (s.line 0).state = .opened ∧ (s.line 0).rx.queue.length ≤ (1#8).toNat ∧ (s.line 0).frameCount ≤ (1#8).toNat) ∧
    (State.reset.line 0).state ≠ .opened := by
  refine ⟨fun ps => withLine_executes _ _ _ _ ?_, ?_, ?_⟩ <;> decide +kernel

/-- The seven values come into force; a lifetime of 9 is refused and changes nothing (R113). -/
theorem test_set_line :
    (let t := after .setLine (commanded .setLine 1 [0, 15, 10, 0, 32, 0x0C, 32, 64] (withLine gapLine));
      (t.line 0).config.weight = 15 ∧ (t.line 0).config.lifetime = 10 ∧ (t.line 0).config.threshold = 32 ∧
        (t.line 0).config.deliverErrors = true ∧ (t.line 0).config.limit = 64 ∧ answers t = [(.ok, [])]) ∧
    answers (after .setLine (commanded .setLine 1 [0, 15, 9, 0, 32, 0x0C, 32, 64] (withLine gapLine))) = [(.badValue, [])] := by
  decide +kernel

theorem test_witness_close_line :
    (∀ ps, (commanded .closeLine 1 ps (withLine gapLine)).Executes .closeLine 1 ps) ∧
    (let s := withLine gapLine;
      (s.line 0).state = .opened ∧ (s.line 0).tx.state = .idle ∧ (s.line 0).tx.urgent = [] ∧ (s.line 0).tx.normal = [] ∧
        (s.line 0).tx.current = none ∧ (s.line 0).tx.pendingBreak = none ∧ (s.line 0).rx.queue = [] ∧
        (s.line 0).rx.current = none ∧ discardingOf 0 s = []) ∧
    (State.reset.line 0).state = .closed ∧ txModeField 1 = some .flush ∧ rxModeField 0 = some .deliver ∧
    txModeField 2 = none := by
  refine ⟨fun ps => withLine_executes _ _ _ _ ?_, ?_⟩ <;> decide +kernel

/-- A line that holds nothing reaches CLOSED in the event of its CLOSE_LINE (R116, R122). -/
theorem test_close_line_empty :
    let t := after .closeLine (commanded .closeLine 1 [0, 0, 0, 5, 0] (withLine gapLine))
    (t.line 0).state = .closed ∧ (t.line 0).close.reportPending = true ∧ answers t = [(.ok, [])] := by decide +kernel

/-- A CLOSING line that holds nothing, with a DISCARDING frame of tag 5. -/
def lastState : State :=
  tagged (txRecord .discarding) (withLine { gapLine with
    state := .closing, rx := { Receiver.reset with pendingLoss := true }, group := { gapLine.group with latched := true } })

theorem test_witness_reaching_closed :
    (let l := lastState.line 0;
      l.state = .closing ∧ l.tx.urgent = [] ∧ l.tx.normal = [] ∧ l.tx.current = none ∧ l.tx.state = .idle ∧ l.rx.queue = []) ∧
    discardingOf 0 lastState = [0] ∧ ((withLine gapLine).line 0).state ≠ .closing ∧
    (let s := framed (rxRecord .assembling) (withLine (rxOf (fun k => { k with state := .assembling, current := some 0 }) gapLine));
      (s.line 0).rx.state = .assembling ∧ (s.line 0).rx.current = some 0) ∧
    (let l := txOf (fun k => { k with state := .breaking, pendingBreak := some { tag := 3, duration := 2 } }) gapLine;
      l.tx.pendingBreak = some { tag := 3, duration := 2 }) := by decide +kernel

/-- The line reaches CLOSED: its DISCARDING frame is DONE and flushed, loss flag and group are cleared, the report waits (R122). -/
theorem test_reaching_closed :
    let t := judgeClosed 0 lastState
    (t.line 0).state = .closed ∧ (t.line 0).close.flushed = 1 ∧ t.completion = [.frame 0] ∧ t.tags = [] ∧
      (t.line 0).rx.pendingLoss = false ∧ (t.line 0).group.latched = false ∧ (t.line 0).close.reportPending = true := by
  decide +kernel

/-- A CLOSING line in transmit mode DRAIN and receive mode DELIVER whose frame 0 is being sent. -/
def closingLine : Line :=
  { sendingLine .data with state := .closing, rx := { Receiver.reset with queue := [1] } }

theorem test_witness_escalation :
    (∀ ps, (commanded .closeLine 1 ps (withLine closingLine)).Executes .closeLine 1 ps) ∧
    ((withLine closingLine).line 0).state = .closing ∧ ((withLine closingLine).line 0).close.txMode = .drain ∧
    ((withLine closingLine).line 0).close.rxMode = .deliver ∧ 1 ∈ ((withLine closingLine).line 0).rx.queue := by
  refine ⟨fun ps => withLine_executes _ _ _ _ ?_, ?_⟩ <;> decide +kernel

/-- FLUSH over DRAIN asks the frame being sent to abort; asked again it is refused (R121). -/
theorem test_close_line_escalates :
    let s := framed (txRecord .sending) (withLine closingLine)
    let t := after .closeLine (commanded .closeLine 1 [0, 1, 0, 0, 0] s)
    (t.frame 0).map FrameRecord.outcome = some (some .flushed) ∧ (t.line 0).close.txMode = .flush ∧ answers t = [(.ok, [])] ∧
      answers (after .closeLine (commanded .closeLine 1 [0, 0, 0, 0, 0] s)) = [(.wrongState, [])] := by decide +kernel

/-- Three received frames, the middle one with delivery begun. -/
def threeReceived : State :=
  let r (x : FrameState) (c : Nat) : FrameRecord := { rxRecord x with chain := [{ cell := c, fill := 5 }], stored := 5 }
  let s := withLine { closingLine with rx := { Receiver.reset with queue := [2, 1, 0] } }
  ((s.putFrame 0 (r .queued 7)).putFrame 1 (r .delivering 8)).putFrame 2 (r .queued 9)

theorem test_witness_release_discard : (threeReceived.line 0).rx.queue.Nodup ∧ (threeReceived.line 0).rx.queue = [2, 1, 0] := by
  decide +kernel

/-- The frames without delivery begun are released and counted; the other stays (R119). -/
theorem test_release_discard :
    let t := releaseDiscard 0 threeReceived
    (t.line 0).rx.queue = [1] ∧ (t.line 0).close.discarded = 2 ∧ t.frame 0 = none ∧ t.frame 2 = none ∧
      (t.frame 1).isSome = true ∧ t.store.freeCells.drop 2048 = [9, 7] := by decide +kernel

theorem test_witness_query_line :
    (∀ ps, (commanded .queryLine 1 ps (withLine gapLine)).Executes .queryLine 1 ps) ∧
    (let s := withLine { gapLine with close := { gapLine.close with drainTimer := some 65535 } };
      (s.line 0).close.drainTimer = some 65535) ∧ ((withLine gapLine).line 0).close.drainTimer = none := by
  refine ⟨fun ps => withLine_executes _ _ _ _ ?_, ?_⟩ <;> decide +kernel

/-- A clear flag of 1 zeroes the counters after they were read (R125). -/
theorem test_query_line_clears :
    let l := { gapLine with counters := { gapLine.counters with txFrames := 258 } }
    let t := after .queryLine (commanded .queryLine 1 [0, 1] (withLine l))
    (t.line 0).counters.txFrames = 0 ∧ (answers t).map (fun a => (a.2.drop 32).take 2) = [[2, 1]] := by decide +kernel

theorem test_witness_break_and_seek :
    (∀ ps, (commanded .sendBreak 1 ps (withLine gapLine)).Executes .sendBreak 1 ps) ∧
    (∀ ps, (commanded .seekLine 1 ps (withLine (syncIn .assembling))).Executes .seekLine 1 ps) ∧
    (let s := withLine gapLine; (s.line 0).state = .opened ∧ (s.line 0).isSync = false ∧ (s.line 0).tx.pendingBreak = none) ∧
    (let s := withLine (txOf (fun k => { k with pendingBreak := some { tag := 3, duration := 2 } }) gapLine);
      (s.line 0).tx.pendingBreak.isSome = true ∧ s.occupied < 16) ∧
    (let s := withLine (syncAssembling 3 0 0);
      (s.line 0).state = .opened ∧ (s.line 0).isSync = true ∧ (s.line 0).rx.state = .assembling ∧
        (s.line 0).rx.current = some 0) ∧
    (syncIn .synced).rx.state = .synced ∧ (syncIn .seek).rx.state = .seek := by
  refine ⟨fun ps => withLine_executes _ _ _ _ ?_, fun ps => withLine_executes _ _ _ _ ?_, ?_⟩ <;> decide +kernel

/-- A SEND_BREAK on an idle line begins the break; 5 ms are 6 ticks between two ticks; no reply is formed (R66, R67, R185). -/
theorem test_send_break :
    let t := after .sendBreak (commanded .sendBreak 9 [0, 5, 0] (withLine gapLine))
    (t.line 0).tx.state = .breaking ∧ (t.line 0).tx.breakTimer = some 6 ∧ t.replies = [] ∧ t.occupied = 1 := by decide +kernel

/-- SEEK_LINE takes a SYNCED receiver back to SEEK (Table 4.5). -/
theorem test_seek_line :
    let t := after .seekLine (commanded .seekLine 9 [0] (withLine (syncIn .synced)))
    (t.line 0).rx.state = .seek ∧ answers t = [(.ok, [])] := by decide +kernel

theorem test_witness_cancel_frame :
    (∀ ps, (commanded .cancelFrame 1 ps (withLine gapLine)).Executes .cancelFrame 1 ps) ∧
    Table.get (withLine gapLine).tags 5 = none ∧
    (∀ x ∈ [FrameState.filling, .ready, .sending, .discarding],
      Table.get (tagged (txRecord x) (withLine gapLine)).tags 5 = some 0 ∧
        (tagged (txRecord x) (withLine gapLine)).frame 0 = some { txRecord x with tag := 5 }) := by
  refine ⟨fun ps => withLine_executes _ _ _ _ ?_, ?_⟩ <;> decide +kernel

/-- A FILLING frame that is cancelled waits in DISCARDING for its LAST segment; an unknown tag is not found (Table 2.5). -/
theorem test_cancel_frame :
    let s := tagged (txRecord .filling) (withLine queueLine)
    let t := after .cancelFrame (commanded .cancelFrame 1 [5, 0] s)
    (t.frame 0).map (fun r => (r.state, r.outcome)) = some (.discarding, some .cancelled) ∧ (t.line 0).tx.normal = [] ∧
      answers t = [(.ok, [])] ∧ answers (after .cancelFrame (commanded .cancelFrame 1 [6, 0] s)) = [(.notFound, [])] := by
  decide +kernel

/-- Two frames of line 0, the second older; line 1 open with room for one. -/
def redirectState : State :=
  ((framed { txRecord .filling with age := 3 } (withLine (txOf (fun k => { k with urgent := [0], normal := [1] }) gapLine))).putFrame 1
    { txRecord .ready with age := 9 }).modLine 1 (fun _ => { gapLine with config := { gapLine.config with gateTx := true, limit := 1 }, clear := false })

theorem test_witness_redirect :
    (∀ ps, (commanded .redirect 1 ps redirectState).Executes .redirect 1 ps) ∧
    (redirectState.line 1).state = .opened ∧ (redirectState.line 0).state ≠ .closed ∧ (redirectState.line 2).state ≠ .opened ∧
    lineField 8 = none := by
  refine ⟨fun ps => commanded_executes _ _ _ rfl rfl ?_, ?_⟩ <;> decide +kernel

/-- The older frame moves, the other stays (R46). -/
theorem test_redirect_moves_the_oldest :
    let t := after .redirect (commanded .redirect 1 [0, 1, 2, 0] redirectState)
    (t.line 0).tx.urgent = [0] ∧ (t.line 0).tx.normal = [] ∧ (t.line 1).tx.normal = [1] ∧
      (t.frame 1).map FrameRecord.line = some 1 ∧ answers t = [(.ok, [1, 1])] := by decide +kernel

/-- Of two frames of one age the URGENT one moves (R46). -/
theorem test_redirect_equal_ages :
    let s := redirectState.putFrame 1 { txRecord .ready with age := 3 }
    let t := after .redirect (commanded .redirect 1 [0, 1, 2, 0] s)
    (t.line 0).tx.urgent = [] ∧ (t.line 0).tx.current = some 1 ∧ (t.line 1).tx.urgent = [0] := by decide +kernel

theorem test_witness_device :
    (∀ c ps, (commanded c 1 ps State.reset).Executes c 1 ps) ∧
    (let s := linkUp State.reset; s.link.sending = none) ∧
    (let s := State.reset.modLink (fun h => { h with sending := none, item := .welcome });
      s.link.sending = none ∧ s.link.item = .welcome) := by
  refine ⟨fun c ps => commanded_executes _ _ _ rfl rfl ?_, ?_⟩ <;> decide +kernel

/-- IDENTIFY, SET_DEVICE at and beyond its ranges, QUERY_DEVICE after reset (Tables 10.9, 10.10). -/
theorem test_device_commands :
    answers (after .identify (commanded .identify 1 [] State.reset)) = [(.ok, [0x08, 0x02, 0x02, 0x08, 0x00, 0x08, 0x80, 0x01])] ∧
      (after .setDevice (commanded .setDevice 1 [0x00, 0x04, 64] State.reset)).reserveFloor = 1024 ∧
      answers (after .setDevice (commanded .setDevice 1 [0x01, 0x04, 64] State.reset)) = [(.badValue, [])] ∧
      answers (after .setDevice (commanded .setDevice 1 [0x00, 0x04, 65] State.reset)) = [(.badValue, [])] := by decide +kernel

theorem test_query_device :
    (answers (after .queryDevice (commanded .queryDevice 1 [0] State.reset))).map (fun a => (a.1, a.2.take 11)) =
      [(.ok, [0x00, 0x08, 0x80, 0x01, 0, 0, 16, 0, 0x00, 0x01, 16])] := by decide +kernel

/-- Sixteen replies wait: every place is occupied. -/
def fullReplies (s : State) : State :=
  { s with replies := List.replicate 16 { reply := { code := 1, tag := 1, status := .ok, results := [] }, carriedBy := none } }

theorem test_witness_stall_or_refusal :
    (let s := offered .command [0x01, 0x09] (fullReplies State.reset);
      s.rstLow = false ∧ s.link.headStalled = false ∧ s.occupied = 16 ∧
        s.link.inbound.head? = some { kind := .command, payload := [0x01, 0x09] } ∧
        [0x01#8, 0x09#8].head? = some CommandCode.identify.octet) ∧
    (∀ c ∈ CommandCode.all, c.octet ≠ 0x55#8) ∧ ([] : List Byte).length ≠ CommandCode.identify.paramLength + 1 ∧
    (offered .command [] State.reset).occupied < 16 := by decide +kernel

/-- A command stalls for want of a reply place and keeps its slot (R174); an unknown code is refused with its tag (R172). -/
theorem test_stall_and_unknown_command :
    (let t := after .identify (offered .command [0x01, 0x09] (fullReplies State.reset));
      t.link.headStalled = true ∧ t.link.inbound.length = 1 ∧ t.replies.length = 16) ∧
    (after .unknownCommand (offered .command [0x55, 0x09] State.reset)).replies.map ReplyEntry.reply =
      [{ code := 0x55#8, tag := 0x09#8, status := .unknownCommand, results := [] }] ∧
    (after .resetDevice (offered .command [0x04, 0x09] (fullReplies State.reset))).replies = [] := by decide +kernel

theorem test_witness_stalled_command :
    (let s := stalled (offered .command [0x01, 0x09] (fullReplies State.reset));
      s.rstLow = false ∧ s.link.headStalled = true ∧ s.occupied = 16 ∧
        s.link.inbound.head? = some { kind := .command, payload := [0x01, 0x09] } ∧
        [0x01#8, 0x09#8].head? ≠ some CommandCode.resetDevice.octet) ∧
    (stalled (offered .command [0x55, 0x09] State.reset)).occupied < 16 := by decide +kernel

/-- The stalled command stays while the queue is full, and is executed when a place is free (R174). -/
theorem test_stalled_command_judged_again :
    (rejudgeCommand (stalled (offered .command [0x01, 0x09] (fullReplies State.reset)))).link.headStalled = true ∧
      answers (rejudgeCommand (stalled (offered .command [0x01, 0x09] State.reset))) =
        [(.ok, [0x08, 0x02, 0x02, 0x08, 0x00, 0x08, 0x80, 0x01])] := by decide +kernel

/-! ## Upstream Arbiter -/

/-- The state with one unsent reply. -/
def oneReply (s : State) : State := joinReply { code := 0x01, tag := 0x09, status := .ok, results := [] } s

/-- A line with a received frame 0 queued for the host. -/
def deliveringState : State :=
  let r : FrameRecord := { rxRecord .queued with chain := [{ cell := 0, fill := 3 }], stored := 3, outcome := some .ok }
  framed r (withLine (rxOf (fun k => { k with queue := [0] }) gapLine))

/-- A state for each class: a reply; a condition; an unreported entry; a closed line without and behind one; received data;
nothing. -/
theorem test_witness_class_order :
    (∃ e ∈ (oneReply State.reset).replies, e.carriedBy = none) ∧
    (let s := withLine { gapLine with group := { gapLine.group with reportPending := true } };
      s.replies = [] ∧ (s.line 0).group.reportPending = true) ∧
    (let s := { framed (txRecord .done) State.reset with completion := [.frame 0] };
      EntryRef.frame 0 ∈ s.completion ∧ entryReported s (.frame 0) = false) ∧
    (let s := withLine { Line.reset false false with close := { CloseState.reset with reportPending := true } };
      (s.line 0).close.reportPending = true ∧ s.completion = []) ∧
    (deliveryPointer deliveringState 0).isSome = true ∧ (∀ n, (deliveryPointer State.reset n).isSome = false) := by
  decide +kernel

/-- The highest class goes first: a reply before the data that waits (Table 7.1). -/
theorem test_class_order_reply_first :
    ((formRecord (oneReply deliveringState)).map Prod.fst) = some .reply ∧
      ((formRecord deliveringState).map Prod.fst) = some (.rxSegment 0 0 3 true true false false) ∧
      (formRecord State.reset).isNone = true := by decide +kernel

/-- The delivery pointer passes over a frame that is SENT (R136). -/
theorem test_delivery_pointer_skips_sent :
    let s := (framed (rxRecord .sent) (withLine (rxOf (fun k => { k with queue := [0, 1] }) gapLine))).putFrame 1
      (rxRecord .delivering)
    deliveryPointer s 0 = some 1 ∧ deliveryPointer (s.putFrame 1 (rxRecord .sent)) 0 = none := by decide +kernel

/-- The pointed line with a turn left; the next line but one after it, wrapping from 7; the same line again after eight. -/
theorem test_witness_round_robin :
    (let s := { deliveringState with pointer := 0, turnCount := 1 };
      (deliveryPointer s s.pointer).isSome = true ∧ 1 ≤ s.turnCount) ∧
    (let s := deliveringState;
      ¬ ((deliveryPointer s s.pointer).isSome = true ∧ 1 ≤ s.turnCount) ∧ (0 : LineNo).val = (s.pointer.val + 1) % 8 ∧
        (deliveryPointer s 0).isSome = true) ∧
    (let s := { deliveringState with pointer := 0, turnCount := 0 };
      ¬ ((deliveryPointer s s.pointer).isSome = true ∧ 1 ≤ s.turnCount) ∧ (0 : LineNo).val = (s.pointer.val + 8) % 8 ∧
        ∀ e, 1 ≤ e → e < 8 → ∀ m : LineNo, m.val = (s.pointer.val + e) % 8 → deliveryPointer s m = none) ∧
    (let s := deliveringState;
      chooseLine s = some (0, 1) ∧ deliveryPointer s 0 = some 0 ∧ (s.frame 0).any (fun r => r.cursor < r.stored) = true ∧
        1 ≤ s.link.segmentSize) := by
  refine ⟨by decide +kernel, by decide +kernel, ⟨by decide +kernel, by decide +kernel, ?_⟩, by decide +kernel⟩
  intro e h1 h2 m hm
  have h : ∀ m : LineNo, m ≠ 0 → deliveryPointer { deliveringState with pointer := 0, turnCount := 0 } m = none := by
    decide +kernel
  refine h m ?_
  rintro rfl
  simp only at hm
  have h0 : (0 : LineNo).val = 0 := rfl
  omega

/-- Sources for a payload of each kind: a carried reply, a DONE frame, a reject slot, a received frame. -/
theorem test_witness_payloads :
    (let s := { State.reset with replies := [{ reply := { code := 1, tag := 9, status := .ok, results := [] }, carriedBy := some 5 }] };
      s.replies = [] ++ { reply := { code := 1, tag := 9, status := .ok, results := [] }, carriedBy := some 5 } :: []) ∧
    (framed { txRecord .done with outcome := some .flushed } State.reset).frame 0 =
      some { txRecord .done with outcome := some .flushed } ∧
    (Table.get (noSlots State.reset).rejects 3).isSome = true ∧ (deliveringState.frame 0).map FrameRecord.outcome = some (some .ok) := by
  decide +kernel

/-- A TX_DONE record of a flushed frame and of a rejected segment; an RX_SEGMENT of two octets of a frame of three
(Tables 10.12, 10.13). -/
theorem test_record_payloads :
    payloadOf (noSlots (framed { txRecord .done with outcome := some .flushed, tag := 0x0102, sentCount := 3 } State.reset))
        { seq := 0, content := .txDone [.frame 0, .reject 3] } =
      [2, 0, 0x02, 0x01, 0, 6, 3, 0, 1, 1, 0, 0, 0x13, 0, 0] ∧
    payloadOf deliveringState { seq := 0, content := .rxSegment 0 1 2 false true false true } =
      [0, 0x0A, 0, 0, 1, 0, 3, 0, 0, 0, 0] ∧
    payloadOf State.reset { seq := 0, content := .closed 2 1 256 3 } = [2, 1, 0, 0, 1, 3, 0] := by decide +kernel

/-- A frame longer than the segment size is cut: the first segment is not the last (R138). -/
theorem test_segment_is_cut :
    let s := deliveringState.modLink (fun h => { h with segmentSize := 2 })
    ((formSegment s).map Prod.fst) = some (.rxSegment 0 0 2 true false false false) ∧
      ((formSegment s).bind (fun x => x.2.frame 0)).map (fun r => (r.state, r.cursor)) = some (.delivering, 2) := by
  decide +kernel

/-! ## Host Link Controller -/

/-- A retained REPLY record with this number. -/
def retainedReply (k : Seq) : Retained := { seq := k, content := .reply }

/-- The link UP with the records 62, 63 and 0 retained, and room for more. -/
def threeRetained : State :=
  (linkUp State.reset).modLink (fun h => { h with
    vA := 62, vS := 1, retain := [retainedReply 62, retainedReply 63, retainedReply 0], retransTimer := some 7
    silenceTimer := some 9, grantBase := 62, grantRoom := 8, item := .none })

theorem test_witness_serializer :
    State.reset.link.sending.isSome = true ∧
    (let s := linkUp State.reset; s.link.sending = none ∧ s.link.item = .none ∧ s.link.state = .up ∧ s.link.cursor = none) ∧
    (∀ x ∈ [LinkItem.welcome, .resync], ((linkUp State.reset).modLink (fun h => { h with item := x })).link.item = x) ∧
    ((linkUp State.reset).modLink (fun h => { h with state := .down })).link.state = .down ∧
    (let s := threeRetained.modLink (fun h => { h with cursor := some 63 });
      s.link.cursor = some 63 ∧ s.link.retained 63 = some (retainedReply 63)) ∧
    (let s := oneReply ((linkUp State.reset).modLink (fun h => { h with grantRoom := 1 }));
      s.link.retain.length < 8 ∧ (s.link.vS - s.link.grantBase).toNat < s.link.grantRoom ∧ (formRecord s).isSome = true) ∧
    ((linkUp State.reset).link.ackOwed = false ∧ 8 - (linkUp State.reset).link.inbound.length = (linkUp State.reset).link.roomLastSent) := by
  decide +kernel

/-- A new record takes V(S) and starts the retransmission timer; a NAK goes before it (R162, R165, R168). -/
theorem test_sending_end_serves :
    let s := oneReply ((linkUp State.reset).modLink (fun h => { h with grantRoom := 1, sending := some .firstResync }))
    let t := after .sendingEnd s
    (t.link.sending.map PartRecord.type) = some .reply ∧ t.link.vS = 1 ∧ t.link.retransTimer = some 201 ∧
      ((after .sendingEnd (s.modLink (fun h => { h with nakPending := true }))).link.sending.map PartRecord.type) = some .nak := by
  decide +kernel

/-- Lengths 256 and 257 where the header ends; a wrong CRC, an unknown type and a checked record of no payload (R152). -/
theorem test_witness_record_verdict :
    recordVerdict [0x01, 0, 0, 8, 0x00] = .incomplete ∧ recordVerdict [0x01, 0, 0, 8, 0x00, 0x01] = .incomplete ∧
      recordVerdict [0x01, 0, 0, 8, 0x01, 0x01] = .failed ∧ recordVerdict [0x01, 0, 0, 8, 0x01, 0x01, 0] = .beyond ∧
      (let crc (type : Byte) : List Byte := octets16 (recordCrc [type, 0, 0, 8, 0, 0]).toNat;
        recordVerdict ([0x02, 0, 0, 8, 0, 0] ++ crc 0x03) = .failed ∧ crc 0x02 ≠ crc 0x03 ∧
        recordVerdict ([0x82, 0, 0, 8, 0, 0] ++ crc 0x82) = .failed ∧
        (∀ t ∈ [HostType.hello, .ack, .nak, .command, .txSegment], 0x82#8 ≠ t.code) ∧
        recordVerdict ([0x02, 0, 0, 8, 0, 0] ++ crc 0x02) = .checked .ack { seq := 0, ack := 0, room := 8, payload := [] } ∧
        recordVerdict ([0x02, 0, 0, 8, 0, 0] ++ crc 0x02 ++ [0]) = .beyond) := by decide +kernel

theorem test_witness_record_error :
    recordVerdict [0x02] = .incomplete ∧ recordVerdict [0x10, 0, 0, 8, 0x01, 0x01] = .failed ∧
      0xC3#8 ∉ [0x10#8, 0, 0, 8, 0x01, 0x01] ∧ recordVerdict [0x10, 0xC3, 0x02, 8, 0x01, 0x01] = .failed ∧
      [0x10#8, 0xC3, 0x02, 8, 0x01, 0x01] = [0x10#8] ++ 0xC3#8 :: [0x02#8, 8, 0x01, 0x01] ∧ 0xC3#8 ∉ [0x10#8] ∧
      State.reset.link.reception = .searching := by decide +kernel

/-- The search resumes behind the start octet of the record in error, and finds the next start octet there (R152). -/
theorem test_record_error_resumes :
    let t := after (.receiveRecordError [0x10, 0xC3, 0x02, 8, 0x01, 0x01] false) State.reset
    t.link.reception = .reading [0x02, 8, 0x01, 0x01] ∧ t.link.crcErrors = 1 := by decide +kernel

/-- The octets of an ACK record after its start octet. -/
def ackOctets : List Byte := hostOctets .ack { seq := 0, ack := 0, room := 8, payload := [] }

/-- The octets that are there begin the record in error, lie behind it, or belong to another; the same for a checked record. -/
theorem test_witness_reading :
    recordVerdict [0x10, 0, 0, 8, 0x01, 0x01] = .failed ∧ recordVerdict [0x10, 0] = .incomplete ∧
      [0x10#8] <+: [0x10#8, 0, 0, 8, 0x01, 0x01] ∧ [0x10#8, 0, 0, 8, 0x01, 0x01] <+: [0x10#8, 0, 0, 8, 0x01, 0x01, 0xC3] ∧
      ¬ [0x11#8] <+: [0x10#8, 0] ∧ ¬ [0x10#8, 0] <+: [0x11#8] ∧ [0x02#8, 0] <+: ackOctets ∧ ¬ [0x03#8] <+: ackOctets ∧
      ¬ ackOctets <+: [0x03#8] ∧ recordVerdict ackOctets ≠ .failed ∧
      ackOctets ++ [0xC3, 0x07] = hostOctets .ack { seq := 0, ack := 0, room := 8, payload := [] } ++ [] ++ 0xC3#8 :: [0x07#8] ∧
      (State.reset.modLink (fun h => { h with reception := .reading [0x10] })).link.reception = .reading [0x10] := by
  decide +kernel

theorem test_witness_resumes : ResumesWith [0x01, 0xC3, 0x02] (.reading [0x02]) ∧ ResumesWith [0x01] .searching :=
  ⟨.inr ⟨[0x01], [0x02], rfl, by decide, rfl⟩, .inl ⟨by decide, rfl⟩⟩

/-- The rest of the octets is searched again: behind a record in error, and behind a checked record; a bad character cannot come
before octets that are already there (R152). -/
theorem test_reading_is_searched_again :
    let reading (l : List Byte) := State.reset.modLink (fun h => { h with reception := .reading l })
    (after (.receiveRecordError [0x10, 0, 0, 8, 0x01, 0x01] false) (reading [0x10, 0, 0, 8, 0x01, 0x01, 0xC3, 0x02])).link.reception =
        .reading [0x02] ∧
      (after (.hostAck { seq := 0, ack := 0, room := 8, payload := [] }) (reading (ackOctets ++ [0xC3, 0x07]))).link.reception =
        .reading [0x07] ∧
      after (.receiveRecordError [0x10] true) (reading [0x10, 0xC3]) = reading [0x10, 0xC3] := by decide +kernel

/-- A HELLO at the ends of its ranges, and one beyond each of them. -/
theorem test_witness_hello :
    (∀ p ∈ [[1#8, 1#8, 0#8, 16#8], [255#8, 15#8, 255#8, 240#8]],
      (helloParams { seq := 0, ack := 0, room := 8, payload := p }).isSome = true) ∧
    (∀ p ∈ [[0#8, 1#8, 0#8, 16#8], [1#8, 0#8, 0#8, 16#8], [1#8, 16#8, 0#8, 16#8], [1#8, 1#8, 0#8, 15#8], [1#8, 1#8, 0#8, 241#8], [1#8]],
      helloParams { seq := 0, ack := 0, room := 8, payload := p } = none) ∧
    helloParams { seq := 0, ack := 0, room := 9, payload := [1, 1, 0, 16] } = none ∧ State.reset.rstLow = false := by
  decide +kernel

/-- The link comes UP with the parameters of the HELLO; WELCOME waits behind the RESYNC being sent (R156, R157). -/
theorem test_hello_brings_up :
    let t := after (.hello { seq := 0, ack := 0, room := 3, payload := [20, 4, 20, 240] }) State.reset
    t.link.state = .up ∧ t.link.item = .welcome ∧ t.link.grantRoom = 3 ∧ t.link.silenceTimer = some 2001 := by decide +kernel

/-- A rewound reply is unsent again; a CLOSED report waits again on a CLOSED line alone (R146, R147). -/
theorem test_rewind_rows :
    let s := { State.reset with replies := [{ reply := { code := 1, tag := 9, status := .ok, results := [] }, carriedBy := some 5 }] }
    (rewindRecord s { seq := 5, content := .reply }).replies.map ReplyEntry.carriedBy = [none] ∧
      ((rewindRecord State.reset { seq := 5, content := .closed 2 0 0 0 }).line 2).close.reportPending = true ∧
      ((rewindRecord (withLine gapLine) { seq := 5, content := .closed 0 0 0 0 }).line 0).close.reportPending = false ∧
      entryReported (rewindRecord (framed { txRecord .done with reported := true } State.reset)
        { seq := 5, content := .txDone [.frame 0] }) (.frame 0) = false := by decide +kernel

/-- Acknowledge values at the ends of the window 62 to 1, and one beyond; in DOWN. -/
theorem test_witness_acknowledgement :
    (let s := threeRetained;
      s.rstLow = false ∧ s.link.reception = .searching ∧ s.link.state = .up ∧ s.link.ackValue 62 = some 62 ∧
        s.link.ackValue 1 = some 1 ∧ s.link.ackValue 2 = none ∧ s.link.ackValue 61 = none ∧ s.link.ackValue 65 = none) ∧
    State.reset.link.state = .down := by decide +kernel

/-- A cursor that the acknowledgement passes, to V(A) and to V(S), and one that it does not; a frame with its LAST acknowledged. -/
theorem test_witness_release :
    (let h := { threeRetained.link with cursor := some 63 };
      (63 - h.vA : Seq).toNat < (0 - h.vA : Seq).toNat ∧ h.cursorAfter 0 = some 0 ∧ h.cursorAfter 1 = none ∧
        h.cursorAfter 63 = some 63) ∧
    (deliveringState.frame 0).map FrameRecord.line = some 0 ∧ threeRetained.link.InRange 0 0 := by
  refine ⟨?_, ?_, ?_, ?_⟩ <;> decide +kernel

/-- An acknowledged LAST segment releases its frame, an acknowledged TX_DONE its entries (Table 7.5). -/
theorem test_release_rows :
    (let t := releaseRecord deliveringState { seq := 5, content := .rxSegment 0 0 3 true true false false };
      t.frame 0 = none ∧ (t.line 0).rx.queue = [] ∧ t.store.freeCells.drop 2048 = [0]) ∧
    (let t := releaseRecord { noSlots (framed (txRecord .done) State.reset) with completion := [.frame 0, .reject 3, .reject 4] }
        { seq := 5, content := .txDone [.frame 0, .reject 3] };
      t.frame 0 = none ∧ t.completion = [.reject 4] ∧ t.rejects.length = 15) := by decide +kernel

/-- ACK 0 takes the two records below 0 from the retain list; a NAK sends again from its number (R161, R163). -/
theorem test_host_ack_and_nak :
    (let t := after (.hostAck { seq := 0, ack := 0, room := 5, payload := [] }) threeRetained;
      t.link.retain = [retainedReply 0] ∧ t.link.vA = 0 ∧ t.link.grantRoom = 5 ∧ t.link.retransTimer = some 201) ∧
    ((after (.hostNak { seq := 0, ack := 63, room := 5, payload := [] }) threeRetained).link.sending.map PartRecord.seq) = some 63 ∧
    (after (.hostAck { seq := 0, ack := 2, room := 5, payload := [] }) threeRetained).link.ackErrors = 1 := by decide +kernel

/-- Send sequences: V(R), V(R) − 1, V(R) − 8, V(R) − 9 and 64, on an empty buffer and a full one. -/
theorem test_witness_sequenced :
    (let h := (linkUp State.reset).link;
      (0#8).toNat = h.vR.toNat ∧ (63#8).toNat = (h.vR - 1).toNat ∧ (56#8).toNat = (h.vR - 8).toNat ∧
        h.isDuplicate 55 = false ∧ h.inbound.length < 8 ∧ h.vA.toNat = (0#8).toNat ∧ h.nakSent = false) ∧
    (let s := (linkUp State.reset).modLink (fun h => { h with inbound := List.replicate 8 { kind := .command, payload := [] } });
      8 ≤ s.link.inbound.length) := by decide +kernel

/-- An acknowledge field that makes progress, and one out of range, on records retained. -/
theorem test_witness_sequenced_acknowledge :
    threeRetained.link.state = .up ∧ threeRetained.link.InRange 1 1 ∧ (∀ a : Seq, ¬ threeRetained.link.InRange 64 a) := by
  refine ⟨rfl, ⟨by decide +kernel, by decide +kernel⟩, ?_⟩
  rintro a ⟨h, -⟩
  have ha := a.isLt
  have h64 : (64 : Byte).toNat = 64 := rfl
  omega

/-- The acknowledge field first, then the record: progress and acceptance in one event; an acknowledge out of range is counted and
the record is accepted all the same (R158, R161). -/
theorem test_sequenced_record_acknowledges :
    (let t := after (.hostSequencedRecord .command { seq := 0, ack := 0, room := 8, payload := [1, 2] }) threeRetained;
      t.link.retain = [retainedReply 0] ∧ t.link.inbound.length = 1) ∧
    (let t := after (.hostSequencedRecord .command { seq := 0, ack := 64, room := 8, payload := [1, 2] }) threeRetained;
      t.link.ackErrors = 1 ∧ t.link.retain.length = 3 ∧ t.link.inbound.length = 1) := by decide +kernel

/-- In order: accepted.  Nine numbers back: one NAK, and not a second (Table 8.5). -/
theorem test_host_sequenced_record :
    (let t := after (.hostSequencedRecord .command { seq := 0, ack := 0, room := 8, payload := [1, 2] }) (linkUp State.reset);
      t.link.inbound = [{ kind := .command, payload := [1, 2] }] ∧ t.link.vR = 1 ∧
        (t.link.sending.map (fun k => (k.type, k.ack, k.room))) = some (.ack, 1, 7)) ∧
    (let t := after (.hostSequencedRecord .command { seq := 55, ack := 0, room := 8, payload := [1, 2] }) (linkUp State.reset);
      t.link.nakSent = true ∧ t.link.inbound = [] ∧ (t.link.sending.map PartRecord.type) = some .nak ∧
        (after (.hostSequencedRecord .command { seq := 55, ack := 0, room := 8, payload := [1, 2] }) t).link.nakPending = false) := by
  decide +kernel

theorem test_witness_link_timers :
    (let s := threeRetained.modLink (fun h => { h with retransTimer := some 0, retryCount := 3 });
      s.rstLow = false ∧ s.link.state = .up ∧ s.link.retransTimer = some 0 ∧ s.link.retryCount < s.link.retryLimit) ∧
    (let s := threeRetained.modLink (fun h => { h with retransTimer := some 0, silenceTimer := some 0, retryCount := 4 });
      s.link.retryLimit ≤ s.link.retryCount ∧ s.link.silenceTimer = some 0) := by decide +kernel

/-- The fourth retry is sent, the fifth takes the link DOWN (R165, R167). -/
theorem test_link_timer_expiries :
    (let t := after .retransmissionTimerExpiry (threeRetained.modLink (fun h => { h with retransTimer := some 0, retryCount := 3 }));
      t.link.state = .up ∧ t.link.retransmissions = 1 ∧ t.link.cursor = some 63) ∧
    (let t := after .retransmissionTimerExpiry (threeRetained.modLink (fun h => { h with retransTimer := some 0, retryCount := 4 }));
      t.link.state = .down ∧ t.link.drops = 1 ∧ t.link.retain.length = 3) ∧
    (after .silenceTimerExpiry (threeRetained.modLink (fun h => { h with silenceTimer := some 0 }))).link.state = .down := by
  decide +kernel

theorem test_witness_round_trip :
    ({ seq := 0, ack := 0, room := 8, payload := List.replicate 256 0xC3 } : HostRecord).payload.length ≤ 256 ∧
      ({ seq := 255, ack := 255, room := 255, payload := [] } : HostRecord).payload.length ≤ 256 := by decide +kernel

/-- The octets of a record are read back, with a payload that holds start octets (R150, R152). -/
theorem test_record_round_trip :
    recordVerdict (hostOctets .command { seq := 5, ack := 64, room := 9, payload := [0xC3, 0xC3, 0x00] }) =
      .checked .command { seq := 5, ack := 64, room := 9, payload := [0xC3, 0xC3, 0x00] } := by decide +kernel

/-! ## Laws that every step keeps -/

/-- Records retained, a cursor, timers, an inbound record that stalls: the laws of the link hold, and a step follows. -/
theorem test_witness_link_laws :
    let s := { fullReplies (threeRetained.modLink (fun h => { h with
      cursor := some 0, inbound := [{ kind := .command, payload := [0x01, 0x09] }], headStalled := true })) with pending := [.tick] }
    s.link.sound ∧ s.occupied ≤ 16 ∧ ∃ t, step s = .next t := by
  refine ⟨?_, ?_, ⟨_, rfl⟩⟩ <;> decide +kernel

/-- Lines that send, receive and are closed, as they should be, and a step from such a state. -/
theorem test_witness_line_laws :
    let s := { (framed (txRecord .sending) (withLine (sendingLine .data))).modLine 1 (fun _ => assemblingLine 3) with
      pending := [.gapEnd 0] }
    (∀ n, (s.line n).placed ∧ (s.line n).bounded) ∧ (∀ n, (s.line n).reportsKept) ∧ ∃ t, step s = .next t := by
  refine ⟨?_, ?_, ⟨_, rfl⟩⟩ <;> decide +kernel

/-- A frame in every place: queued on line 0, in its transmitter, in its receiver, in its receive queue SENT with its LAST segment
retained, in the Tag Map alone, and in the Completion List beside a reject slot, both carried by a retained TX_DONE. -/
def custodyState : State :=
  let r (x : FrameState) (tag : Nat) : FrameRecord := { txRecord x with tag := tag }
  let l := { sendingLine .data with
    tx := { (sendingLine .data).tx with current := some 1, normal := [0] }
    rx := { Receiver.reset with state := .assembling, current := some 2, queue := [3] } }
  { (((((((withLine l).putFrame 0 (r .ready 10)).putFrame 1 (r .sending 11)).putFrame 2 (rxRecord .assembling)).putFrame 3
        (rxRecord .sent)).putFrame 4 (r .discarding 12)).putFrame 5 { r .done 10 with reported := true }) with
    tags := [(10, 0), (11, 1), (12, 4)], completion := [.frame 5, .reject 0]
    rejects := [(0, { tag := 9, line := 0, status := .lineClosed, reported := true })]
    link := { threeRetained.link with
      retain := [{ seq := 62, content := .txDone [.reject 0, .frame 5] }, { seq := 63, content := .rxSegment 3 0 1 true true false false }] }
    pending := [.frameEnd 0] }

theorem test_witness_custody :
    custodyState.tablesKept ∧ (∀ n, (custodyState.line n).placed) ∧ custodyState.custodyKept ∧ custodyState.retainedKept ∧
      ∃ t, step custodyState = .next t := by
  refine ⟨?_, ?_, ⟨?_, ?_, ?_, ?_⟩, ?_, ⟨_, rfl⟩⟩ <;> decide +kernel

/-- A FREE group whose snapshot is the live values, a LATCHED one with a report pending, and a part held in reset. -/
theorem test_witness_report_laws :
    let l := { gapLine with group := { gapLine.group with snapshot := gapLine.live } }
    let k := { gapLine with
      config := { gapLine.config with reportConditions := true }, group := { gapLine.group with latched := true, reportPending := true } }
    l.reportsKept ∧ l.freeGroupCurrent ∧ k.reportsKept ∧ k.freeGroupCurrent ∧
      (let s := { (withLine l).modLine 1 (fun _ => k) with pending := [.carrierChange 0 false] };
        (∀ n, (s.line n).reportsKept) ∧ (∀ n, (s.line n).freeGroupCurrent) ∧ ∃ t, step s = .next t) := by
  refine ⟨?_, ?_, ?_, ?_, ?_, ?_, ⟨_, rfl⟩⟩ <;> decide +kernel

end Sys2Proof.Tests
end

/-! PROOFS. Placing a completed frame (R95, Table 4.7): the changes of a line commute with those of the store, so that each row of
the table is one change of the store and one of the line. -/

namespace Sys2Proof.Machine

/-! ## A change of a line beside a change of the store -/

/-- A change of a line is what it makes of that line. -/
theorem State.modLine_congr {s : State} {n : LineNo} {f g : Line → Line} (h : f (s.line n) = g (s.line n)) :
    s.modLine n f = s.modLine n g := by
  simp only [State.modLine, h]

/-- Changes of a frame record and of a line commute. -/
theorem State.modFrame_modLine (s : State) (n : LineNo) (f : Line → Line) (i : Nat) (g : FrameRecord → FrameRecord) :
    (s.modLine n f).modFrame i g = (s.modFrame i g).modLine n f := by
  cases h : s.frame i with
  | none => simp [State.modFrame, h]
  | some r =>
    rw [State.modFrame_of_frame (by simpa using h), State.modFrame_of_frame h, State.putFrame_modLine]

/-- The release of a chain reads no line (R9). -/
theorem releaseChain_modLine (s : State) (n : LineNo) (f : Line → Line) (i : Nat) :
    releaseChain i (s.modLine n f) = (releaseChain i s).modLine n f := by
  cases h : s.frame i with
  | none => simp [releaseChain, h]
  | some r => simp only [releaseChain, State.frame_modLine, h]; rfl

/-- The return of a frame record to the pool reads no line (R16). -/
theorem freeFrame_modLine (s : State) (n : LineNo) (f : Line → Line) (i : Nat) :
    freeFrame i (s.modLine n f) = (freeFrame i s).modLine n f := by
  simp only [freeFrame, releaseChain_modLine]
  rfl

@[simp] theorem releaseChain_line (s : State) (i : Nat) (n : LineNo) : (releaseChain i s).line n = s.line n := by
  unfold releaseChain
  split <;> rfl

@[simp] theorem freeFrame_line (s : State) (i : Nat) (n : LineNo) : (freeFrame i s).line n = s.line n :=
  releaseChain_line s i n

/-! ## Delivery begun -/

/-- Delivery has begun in DELIVERING, in SENT, and in QUEUED after a rewind (R19). -/
theorem FrameRecord.deliveryBegun_iff (q : FrameRecord) :
    q.deliveryBegun = true ↔ q.state = .delivering ∨ q.state = .sent ∨ (q.state = .queued ∧ q.resent = true) := by
  unfold FrameRecord.deliveryBegun
  cases q.state <;> simp

/-! ## The rows of Table 4.7 -/

/-- First row: below the quota the frame is appended, with the pending-loss flag as its loss mark (R92, R93). -/
theorem placeFrame_below_quota {n : LineNo} {s : State} (i : Nat) (hroom : (s.line n).rx.queue.length < (s.line n).config.quota) :
    placeFrame n i s =
      (s.modFrame i (fun q => { q with
        state := .queued, number := (s.line n).rx.nextNumber, lossMark := (s.line n).rx.pendingLoss })).modLine n
        (fun l => { l with
          rx := { l.rx with
            nextNumber := ((s.line n).rx.nextNumber + 1) % 65536, pendingLoss := false, queue := l.rx.queue ++ [i] }
          counters := { l.counters with rxFrames := satInc l.counters.rxFrames } }) := by
  simp only [placeFrame, if_pos hroom, countRxFrame, State.modFrame_modLine, State.modLine_modLine]
  exact State.modLine_congr (by rw [State.line_modFrame])

/-- Second row: at the quota a tail whose delivery has not begun gives its place to the frame, which takes loss mark yes (R93). -/
theorem placeFrame_replaces_tail {n : LineNo} {s : State} {j : Nat} {q : FrameRecord} (i : Nat)
    (hfull : (s.line n).config.quota ≤ (s.line n).rx.queue.length) (htail : (s.line n).rx.queue.getLast? = some j)
    (hq : s.frame j = some q) (hbegun : q.deliveryBegun = false) :
    placeFrame n i s =
      ((freeFrame j s).modFrame i (fun q => { q with
        state := .queued, number := (s.line n).rx.nextNumber, lossMark := true })).modLine n
        (fun l => { l with
          rx := { l.rx with
            nextNumber := ((s.line n).rx.nextNumber + 1) % 65536, pendingLoss := false, queue := l.rx.queue.dropLast ++ [i] }
          counters := { l.counters with
            rxFrames := satInc l.counters.rxFrames, rxLost := satInc l.counters.rxLost } }) := by
  simp only [placeFrame, if_neg (Nat.not_lt.mpr hfull), htail, hq, Option.elim_some, hbegun, Bool.false_eq_true, if_false,
    countRxFrame, countRxLost, freeFrame_modLine, State.modFrame_modLine, State.modLine_modLine]
  exact State.modLine_congr (by rw [State.line_modFrame, freeFrame_line])

/-- Third row: at the quota a tail whose delivery has begun stays, and the frame is lost with its number (R91, R92). -/
theorem placeFrame_drops_frame {n : LineNo} {s : State} {j : Nat} {q : FrameRecord} (i : Nat)
    (hfull : (s.line n).config.quota ≤ (s.line n).rx.queue.length) (htail : (s.line n).rx.queue.getLast? = some j)
    (hq : s.frame j = some q) (hbegun : q.deliveryBegun = true) :
    placeFrame n i s =
      (freeFrame i s).modLine n (fun l => { l with
        rx := { l.rx with nextNumber := ((s.line n).rx.nextNumber + 1) % 65536, pendingLoss := true }
        counters := { l.counters with rxLost := satInc l.counters.rxLost } }) := by
  simp only [placeFrame, if_neg (Nat.not_lt.mpr hfull), htail, hq, Option.elim_some, hbegun, if_true,
    loseFrame, countRxLost, freeFrame_modLine, State.modLine_modLine]
  exact State.modLine_congr (by rw [freeFrame_line])

/-- Settles O32: by the rows of Table 4.7, each a lemma above. -/
theorem placingRows : Obligations.PlacingRows := by
  intro n i s _ _
  refine ⟨placeFrame_below_quota i, fun j q hfull htail hq _ => ⟨fun hnot => ?_, fun hbegun => ?_⟩⟩
  · have hfresh : q.deliveryBegun = false := Bool.eq_false_iff.mpr fun h => hnot (q.deliveryBegun_iff.mp h)
    exact placeFrame_replaces_tail i hfull htail hq hfresh
  · exact placeFrame_drops_frame i hfull htail hq (q.deliveryBegun_iff.mpr hbegun)

end Sys2Proof.Machine

/-! PROOFS. A command at the head whose reply can join the queue: what its event comes to, and the lines its line number names. -/

namespace Sys2Proof.Machine

/-! ## The event of a command that is executed -/

/-- Every code of Table 9.2 is read back from its octet. -/
theorem commandOf_octet_cons (c : CommandCode) (rest : List Byte) : commandOf (c.octet :: rest) = some c := by
  cases c <;> rfl

/-- A command that is executed is the one to be taken at the head. -/
theorem State.Executes.commandAtHead {s : State} {c : CommandCode} {tag : Byte} {ps : List Byte} (h : s.Executes c tag ps) :
    s.commandAtHead = some (c.octet :: tag :: ps) := by
  obtain ⟨later, hinbound⟩ := List.head?_eq_some_iff.mp h.head
  simp [State.commandAtHead, h.running, h.fresh, hinbound]

/-- A command that is executed finds a place for its reply (R174). -/
theorem State.Executes.not_commandStalls {s : State} {c : CommandCode} {tag : Byte} {ps : List Byte} (h : s.Executes c tag ps)
    (payload : List Byte) : commandStalls payload s = false := by
  have hplace : ¬ Config.replyPlaces ≤ s.occupied := Nat.not_le.mpr h.place
  simp [commandStalls, hplace]

/-- With parameters of the exact length the event runs the command's body; then its execution ends and the free serializer
chooses (R168, R171, R172). -/
theorem State.Executes.knownEvent_eq {s : State} {c : CommandCode} {tag : Byte} {ps : List Byte} (h : s.Executes c tag ps)
    (body : Byte → List Byte → State → State) (hlength : ps.length = c.paramLength) :
    knownEvent c body s = serve false (endExecution (body tag ps s)) := by
  simp only [knownEvent, commandEvent, h.commandAtHead, commandOf_octet_cons, if_true, takeCommand,
    h.not_commandStalls, Bool.false_eq_true, if_false, runKnown, if_pos hlength]

/-! ## The line number of a command -/

/-- A line number above 7 names no line. -/
theorem lineField_eq_none {b : Byte} (h : 8 ≤ b.toNat) : lineField b = none := dif_neg (Nat.not_lt.mpr h)

theorem lineField_eq_some {b : Byte} {n : LineNo} (h : n.val = b.toNat) : lineField b = some n :=
  (dif_pos (h ▸ n.isLt)).trans (congrArg some (Fin.ext h.symm))

end Sys2Proof.Machine

/-! PROOFS. ACK_CONDITION (R101, Table 5.3): a LATCHED group is freed and compared again, in one change of its line. -/

namespace Sys2Proof.Machine

/-! ## The comparison after an acknowledgement -/

/-- The live conditions follow the inputs and the receiver, never the group (R97). -/
@[simp] theorem Line.live_with_group (l : Line) (g : ConditionGroup) : Line.live { l with group := g } = l.live := rfl

/-- A group freed by an acknowledgement latches again exactly when its line is not CLOSED and the live values differ from the
snapshot; the report withdrawn is then made anew under REPORT_CONDITIONS (R99, R101). -/
theorem Line.judgeConditions_acknowledge (l : Line) :
    Line.judgeConditions { l with group := l.group.acknowledge } = { l with group :=
      if l.state ≠ .closed ∧ l.live ≠ l.group.snapshot then
        { snapshot := l.live, latched := true, reportPending := l.config.reportConditions }
      else { l.group with latched := false, reportPending := false } } := by
  simp only [Line.judgeConditions, Line.live_with_group, ConditionGroup.acknowledge, true_and, Bool.false_or]
  split
  · rfl
  · rfl

/-! ## The rows of ACK_CONDITION -/

theorem exec_ackCondition {s : State} {tag b : Byte} (h : s.Executes .ackCondition tag [b]) :
    exec .ackCondition s = .next (serve false (endExecution (ackConditionBody tag [b] s))) :=
  congrArg Host.Outcome.next (h.knownEvent_eq ackConditionBody rfl)

theorem ackConditionBody_no_line {b : Byte} (tag : Byte) (s : State) (h : lineField b = none) :
    ackConditionBody tag [b] s = refuse .ackCondition tag .badLine s := by
  simp only [ackConditionBody, h]

/-- A FREE group stays as it is. -/
theorem ackConditionBody_free {s : State} {b : Byte} {n : LineNo} (tag : Byte) (hn : lineField b = some n)
    (hfree : (s.line n).group.latched = false) :
    ackConditionBody tag [b] s = replyOk .ackCondition tag [] s := by
  simp only [ackConditionBody, hn, hfree, Bool.false_eq_true, if_false]

/-- A LATCHED group is freed and compared again. -/
theorem ackConditionBody_latched {s : State} {b : Byte} {n : LineNo} (tag : Byte) (hn : lineField b = some n)
    (hlatched : (s.line n).group.latched = true) :
    ackConditionBody tag [b] s = replyOk .ackCondition tag [] (s.modLine n (fun l => { l with group :=
      if l.state ≠ .closed ∧ l.live ≠ l.group.snapshot then
        { snapshot := l.live, latched := true, reportPending := l.config.reportConditions }
      else { l.group with latched := false, reportPending := false } })) := by
  simp only [ackConditionBody, hn, hlatched, if_true, judgeConditions, State.modLine_modLine, Line.judgeConditions_acknowledge]

/-- Settles O34: by the line number and the latch of its group, each row a lemma above. -/
theorem ackConditionEffect : Obligations.AckConditionEffect := by
  intro s tag b h
  rw [exec_ackCondition h]
  refine ⟨fun hbad => ?_, fun n hn => ⟨fun hfree => ?_, fun hlatched => ?_⟩⟩
  · rw [ackConditionBody_no_line tag s (lineField_eq_none hbad)]
    rfl
  · rw [ackConditionBody_free tag (lineField_eq_some hn) hfree]
    rfl
  · rw [ackConditionBody_latched tag (lineField_eq_some hn) hlatched]
    rfl

end Sys2Proof.Machine

/-! PROOFS. The class order of the Upstream Arbiter (R129): for each of the five classes of Table 7.1, when it has sendable work
and the record it then forms; the first class that has some forms the record. -/

namespace Sys2Proof.Machine

/-! ## The order of the classes -/

/-- The record of the first class that forms one (Table 7.1). -/
theorem formRecord_eq_or (s : State) : formRecord s =
    (formReply s).or ((formCondition s).or ((formDone s).or ((formClosed s).or (formSegment s)))) := by
  unfold formRecord
  cases formReply s with
  | some x => rfl
  | none => cases formCondition s with
    | some x => rfl
    | none => cases formDone s with
      | some x => rfl
      | none => cases formClosed s with
        | some x => rfl
        | none => rfl

/-- The lowest-numbered line with a property is the one a search of the lines finds. -/
theorem find?_lineNos_eq_some_iff {p : LineNo → Bool} {n : LineNo} :
    lineNos.find? p = some n ↔ p n = true ∧ ∀ m, m < n → p m = false := by
  rw [lineNos, ← Fin.find?_eq_find?_finRange, Fin.find?_eq_some_iff]

theorem find?_lineNos_eq_none_iff {p : LineNo → Bool} : lineNos.find? p = none ↔ ∀ n, p n = false := by
  rw [lineNos, ← Fin.find?_eq_find?_finRange, Fin.find?_eq_none_iff]

/-! ## REPLY -/

/-- The entries before the oldest unsent one are passed over. -/
theorem carryOldest_append {older : List ReplyEntry} (seq : Seq) (rest : List ReplyEntry)
    (h : ∀ o ∈ older, o.carriedBy ≠ none) :
    carryOldest seq (older ++ rest) = (carryOldest seq rest).map (older ++ ·) := by
  induction older with
  | nil => simp
  | cons o older ih =>
    obtain ⟨q, hq⟩ := Option.ne_none_iff_exists'.mp (h o List.mem_cons_self)
    simp only [List.cons_append, carryOldest, hq, ih fun x hx => h x (List.mem_cons_of_mem _ hx), Option.map_map]
    rfl

theorem formReply_eq_none {s : State} (h : ¬ ∃ e ∈ s.replies, e.carriedBy = none) : formReply s = none := by
  have hnone : carryOldest s.link.vS (s.replies ++ []) = none :=
    carryOldest_append s.link.vS [] fun o ho hcarried => h ⟨o, ho, hcarried⟩
  rw [List.append_nil] at hnone
  simp [formReply, hnone]

/-- The oldest unsent entry is marked carried by the record (R130). -/
theorem formReply_of_unsent {s : State} (h : ∃ e ∈ s.replies, e.carriedBy = none) :
    ∃ older e newer, s.replies = older ++ e :: newer ∧ (∀ o ∈ older, o.carriedBy ≠ none) ∧ e.carriedBy = none ∧
      formReply s =
        some (.reply, { s with replies := older ++ { e with carriedBy := some s.link.vS } :: newer }) := by
  have hfound : (s.replies.find? (fun e => e.carriedBy.isNone)).isSome = true := by simpa using h
  obtain ⟨e, he⟩ := Option.isSome_iff_exists.mp hfound
  obtain ⟨hunsent, older, newer, hqueue, holder⟩ := List.find?_eq_some_iff_append.mp he
  have hcarried : ∀ o ∈ older, o.carriedBy ≠ none := fun o ho hnone => by simpa [hnone] using holder o ho
  have hunsent : e.carriedBy = none := Option.isNone_iff_eq_none.mp hunsent
  refine ⟨older, e, newer, hqueue, hcarried, hunsent, ?_⟩
  simp [formReply, hqueue, carryOldest_append _ _ hcarried, carryOldest, hunsent]

/-! ## CONDITION -/

theorem formCondition_eq_none {s : State} (h : ¬ ∃ n, (s.line n).group.reportPending = true) : formCondition s = none := by
  have hclear : ∀ n, (s.line n).group.reportPending = false := by simpa using h
  rw [formCondition, find?_lineNos_eq_none_iff.mpr hclear, Option.map_none]

/-- The lowest-numbered line with its flag set forms the record, and its flag is cleared (R131). -/
theorem formCondition_of_pending {s : State} (h : ∃ n, (s.line n).group.reportPending = true) :
    ∃ n, (s.line n).group.reportPending = true ∧ (∀ m, m < n → (s.line m).group.reportPending = false) ∧
      formCondition s = some (.condition n (s.line n).group.snapshot,
        s.modLine n (fun l => { l with group := { l.group with reportPending := false } })) := by
  obtain ⟨n, hset, hlowest⟩ := (Fin.exists_eq_true_iff_exists_minimal_eq_true _).mp h
  refine ⟨n, hset, hlowest, ?_⟩
  rw [formCondition, find?_lineNos_eq_some_iff.mpr ⟨hset, hlowest⟩, Option.map_some]

/-! ## TX_DONE -/

theorem unreportedBatch_eq_nil_iff {s : State} :
    unreportedBatch s = [] ↔ ¬ ∃ e ∈ s.completion, entryReported s e = false := by
  simp [unreportedBatch]

theorem formDone_eq_none {s : State} (h : ¬ ∃ e ∈ s.completion, entryReported s e = false) : formDone s = none := by
  rw [formDone, unreportedBatch_eq_nil_iff.mpr h]

theorem formDone_of_unreported {s : State} (h : ∃ e ∈ s.completion, entryReported s e = false) :
    formDone s = some (.txDone (unreportedBatch s), (unreportedBatch s).foldl (markEntry true) s) := by
  unfold formDone
  split
  · exact absurd h (unreportedBatch_eq_nil_iff.mp ‹_›)
  · rfl

/-- The mark of an entry is on its frame record alone, if it has one. -/
theorem frame_markEntry (mark : Bool) (s : State) (e : EntryRef) (i : Nat) :
    (markEntry mark s e).frame i =
      if .frame i = e then (s.frame i).map (fun r => { r with reported := mark }) else s.frame i := by
  cases e with
  | frame j =>
    by_cases h : i = j
    · simp [markEntry, h]
    · simp [markEntry, h, State.frame_modFrame_of_ne]
  | reject k =>
    rw [if_neg (by simp), markEntry]
    split
    · rfl
    · rfl

/-- The mark of an entry is on its reject slot alone, if it has one. -/
theorem slot_markEntry (mark : Bool) (s : State) (e : EntryRef) (k : Nat) :
    Table.get (markEntry mark s e).rejects k =
      if .reject k = e then (Table.get s.rejects k).map (fun j => { j with reported := mark }) else Table.get s.rejects k := by
  cases e with
  | frame j => simp [markEntry]
  | reject j =>
    by_cases h : k = j
    · subst h
      cases hslot : Table.get s.rejects k with
      | none => simp [markEntry, hslot]
      | some v => simp [markEntry, hslot]
    · rw [if_neg (by simpa using h), markEntry]
      split
      · rfl
      · exact Table.get_put_of_ne _ _ h

theorem frame_markEntries (mark : Bool) (es : List EntryRef) (s : State) (i : Nat) :
    (es.foldl (markEntry mark) s).frame i =
      if .frame i ∈ es then (s.frame i).map (fun r => { r with reported := mark }) else s.frame i := by
  induction es generalizing s with
  | nil => simp
  | cons e es ih =>
    simp only [List.foldl_cons, ih, frame_markEntry, List.mem_cons]
    by_cases he : EntryRef.frame i = e
    · simp [he, Function.comp_def]
    · simp [he]

theorem slot_markEntries (mark : Bool) (es : List EntryRef) (s : State) (k : Nat) :
    Table.get (es.foldl (markEntry mark) s).rejects k =
      if .reject k ∈ es then (Table.get s.rejects k).map (fun j => { j with reported := mark })
      else Table.get s.rejects k := by
  induction es generalizing s with
  | nil => simp
  | cons e es ih =>
    simp only [List.foldl_cons, ih, slot_markEntry, List.mem_cons]
    by_cases he : EntryRef.reject k = e
    · simp [he, Function.comp_def]
    · simp [he]

/-- The state s with the frame records and the reject slots of t: all that marks can change. -/
def State.withMarksOf (s t : State) : State :=
  { s with store := { s.store with frames := t.store.frames }, rejects := t.rejects }

/-- A mark changes no part of the state but the frame records and the reject slots. -/
theorem markEntry_eq (mark : Bool) (s : State) (e : EntryRef) : markEntry mark s e = s.withMarksOf (markEntry mark s e) := by
  cases e with
  | frame i =>
    simp only [markEntry, State.modFrame]
    split
    · rfl
    · rfl
  | reject k =>
    simp only [markEntry]
    split
    · rfl
    · rfl

theorem markEntries_eq (mark : Bool) (es : List EntryRef) (s : State) :
    es.foldl (markEntry mark) s = s.withMarksOf (es.foldl (markEntry mark) s) := by
  induction es generalizing s with
  | nil => rfl
  | cons e es ih =>
    let marked := es.foldl (markEntry mark) (markEntry mark s e)
    calc marked
      _ = (markEntry mark s e).withMarksOf marked := ih (markEntry mark s e)
      _ = (s.withMarksOf (markEntry mark s e)).withMarksOf marked := congrArg (·.withMarksOf marked) (markEntry_eq mark s e)
      _ = s.withMarksOf marked := rfl

/-! ## CLOSED -/

/-- The CLOSED report of a line waits for the unreported entries of that line alone (R134). -/
theorem hasUnreported_eq_false_iff {s : State} {n : LineNo} :
    hasUnreported s n = false ↔ ∀ e ∈ s.completion, entryReported s e = false → entryLine s e ≠ some n.val := by
  simp [hasUnreported]

theorem formClosed_eq_none {s : State} (h : ¬ ∃ n, (s.line n).close.reportPending = true ∧
      ∀ e ∈ s.completion, entryReported s e = false → entryLine s e ≠ some n.val) : formClosed s = none := by
  have hnot : ∀ n, ((s.line n).close.reportPending && !hasUnreported s n) = false := fun n =>
    Bool.eq_false_iff.mpr fun hn => by
      rw [Bool.and_eq_true, Bool.not_eq_true', hasUnreported_eq_false_iff] at hn
      exact h ⟨n, hn⟩
  rw [formClosed, find?_lineNos_eq_none_iff.mpr hnot, Option.map_none]

/-- With no unreported entry in the list, the lowest-numbered line with its flag set forms the record, and its flag is cleared
(R134). -/
theorem formClosed_of_pending {s : State} (hdone : ¬ ∃ e ∈ s.completion, entryReported s e = false)
    (h : ∃ n, (s.line n).close.reportPending = true) :
    ∃ n, (s.line n).close.reportPending = true ∧ (∀ m, m < n → (s.line m).close.reportPending = false) ∧
      formClosed s =
        some (.closed n (s.line n).close.completed (s.line n).close.flushed (s.line n).close.discarded,
          s.modLine n (fun l => { l with close := { l.close with reportPending := false } })) := by
  have hreported : ∀ n, hasUnreported s n = false := fun n =>
    hasUnreported_eq_false_iff.mpr fun e he hunreported => absurd ⟨e, he, hunreported⟩ hdone
  obtain ⟨n, hset, hlowest⟩ := (Fin.exists_eq_true_iff_exists_minimal_eq_true _).mp h
  refine ⟨n, hset, hlowest, ?_⟩
  simp only [formClosed, hreported, Bool.not_false, Bool.and_true, find?_lineNos_eq_some_iff.mpr ⟨hset, hlowest⟩,
    Option.map_some]

/-! ## RX data -/

/-- The search for the next line passes every line, the pointed one last (R137). -/
theorem mem_searchOrder (p n : LineNo) : n ∈ searchOrder p := by
  refine List.mem_map.mpr ⟨(n.val + 7 - p.val) % 8, List.mem_range.mpr (Nat.mod_lt _ (by decide)), Fin.ext ?_⟩
  simp only
  omega

/-- The chosen line has data (R137). -/
theorem deliveryPointer_of_chooseLine {s : State} {n : LineNo} {turn : Nat} (h : chooseLine s = some (n, turn)) :
    (deliveryPointer s n).isSome = true := by
  unfold chooseLine at h
  split at h
  next hpointed =>
    cases h
    exact hpointed.1
  next =>
    obtain ⟨m, hfound, heq⟩ := Option.map_eq_some_iff.mp h
    cases heq
    exact List.find?_some (p := fun n => (deliveryPointer s n).isSome) hfound

/-- While any line has data, some line is chosen (R137). -/
theorem chooseLine_of_data {s : State} (h : ∃ n, (deliveryPointer s n).isSome = true) :
    ∃ n turn, chooseLine s = some (n, turn) := by
  obtain ⟨m, hdata⟩ := h
  unfold chooseLine
  split
  · exact ⟨_, _, rfl⟩
  · have hfound : ((searchOrder s.pointer).find? (fun n => (deliveryPointer s n).isSome)).isSome = true :=
      List.find?_isSome.mpr ⟨m, mem_searchOrder _ m, hdata⟩
    obtain ⟨n, hn⟩ := Option.isSome_iff_exists.mp hfound
    exact ⟨n, _, by rw [hn, Option.map_some]⟩

/-- The delivery pointer names an allocated frame record (R136). -/
theorem frame_of_deliveryPointer {s : State} {n : LineNo} {i : Nat} (h : deliveryPointer s n = some i) :
    ∃ r, s.frame i = some r := by
  have hwaits := List.find?_some h
  cases hframe : s.frame i with
  | none => simp [hframe] at hwaits
  | some r => exact ⟨r, rfl⟩

theorem formSegment_eq_none {s : State} (h : ¬ ∃ n, (deliveryPointer s n).isSome = true) : formSegment s = none := by
  unfold formSegment
  split
  · rfl
  next hchosen => exact absurd ⟨_, deliveryPointer_of_chooseLine hchosen⟩ h

/-- The record is a segment of the frame at the delivery pointer of the chosen line (R137, R138). -/
theorem formSegment_of_data {s : State} (h : ∃ n, (deliveryPointer s n).isSome = true) :
    ∃ n turn i r, chooseLine s = some (n, turn) ∧ deliveryPointer s n = some i ∧
      formSegment s = some (formSegmentOf n turn i r s) := by
  obtain ⟨n, turn, hchosen⟩ := chooseLine_of_data h
  obtain ⟨i, hpointer⟩ := Option.isSome_iff_exists.mp (deliveryPointer_of_chooseLine hchosen)
  obtain ⟨r, hframe⟩ := frame_of_deliveryPointer hpointer
  refine ⟨n, turn, i, r, hchosen, hpointer, ?_⟩
  simp only [formSegment, hchosen, hpointer, hframe, Option.map_some]

/-! ## The first class with sendable work -/

/-- With no work in the four classes above, the record is one of the RX data class, or there is none. -/
theorem formRecord_eq_formSegment {s : State} (hreply : ¬ ∃ e ∈ s.replies, e.carriedBy = none)
    (hcondition : ¬ ∃ n, (s.line n).group.reportPending = true)
    (hdone : ¬ ∃ e ∈ s.completion, entryReported s e = false)
    (hclosed : ¬ ∃ n, (s.line n).close.reportPending = true ∧
      ∀ e ∈ s.completion, entryReported s e = false → entryLine s e ≠ some n.val) : formRecord s = formSegment s := by
  simp only [formRecord_eq_or, formReply_eq_none hreply, formCondition_eq_none hcondition, formDone_eq_none hdone,
    formClosed_eq_none hclosed, Option.none_or]

/-- Settles O48: a class without sendable work forms nothing, and one with work forms its record, each by a lemma above. -/
theorem classOrder : Obligations.ClassOrder := by
  intro s reply condition txDone closed rxData forms
  refine ⟨fun hreply => ?reply, fun hreply hcondition => ?condition, fun hreply hcondition hdone => ?txDone,
    fun hreply hcondition hdone hclosed => ?closed, fun hreply hcondition hdone hclosed hdata => ?rxData,
    formRecord_eq_formSegment, fun hreply hcondition hdone hclosed hdata => ?none⟩
  case reply =>
    obtain ⟨older, e, newer, hqueue, hcarried, hunsent, hforms⟩ := formReply_of_unsent hreply
    refine ⟨_, _, ?_, rfl, older, e, newer, hqueue, hcarried, hunsent, rfl⟩
    rw [formRecord_eq_or, hforms, Option.some_or]
  case condition =>
    obtain ⟨n, hset, hlowest, hforms⟩ := formCondition_of_pending hcondition
    refine ⟨_, _, ?_, n, rfl, hset, hlowest, rfl⟩
    rw [formRecord_eq_or, formReply_eq_none hreply, hforms, Option.none_or, Option.some_or]
  case txDone =>
    refine ⟨.txDone (unreportedBatch s), (unreportedBatch s).foldl (markEntry true) s, ?_, rfl,
      (upstreamSide_markEntries ..).completion, frame_markEntries true _ s, slot_markEntries true _ s, markEntries_eq ..⟩
    simp only [formRecord_eq_or, formReply_eq_none hreply, formCondition_eq_none hcondition, formDone_of_unreported hdone,
      Option.none_or, Option.some_or]
  case closed =>
    obtain ⟨k, hk, _⟩ := hclosed
    obtain ⟨n, hset, hlowest, hforms⟩ := formClosed_of_pending hdone ⟨k, hk⟩
    refine ⟨_, _, ?_, n, rfl, hset, hlowest, rfl⟩
    simp only [formRecord_eq_or, formReply_eq_none hreply, formCondition_eq_none hcondition, formDone_eq_none hdone, hforms,
      Option.none_or, Option.some_or]
  case rxData =>
    obtain ⟨n, turn, i, r, hchosen, hpointer, hforms⟩ := formSegment_of_data hdata
    exact ⟨_, _, (formRecord_eq_formSegment hreply hcondition hdone hclosed).trans hforms,
      n, turn, i, _, _, _, _, _, _, hchosen, hpointer, rfl⟩
  case none =>
    exact (formRecord_eq_formSegment hreply hcondition hdone hclosed).trans (formSegment_eq_none hdata)

end Sys2Proof.Machine

/-! PROOFS. IDENTIFY (R176): the octets of the identification, in its reply and in every WELCOME. -/

namespace Sys2Proof.Machine

/-! ## The identification -/

/-- The octets of Table 10.9: part code 0208h, revision 2, 8 lines, 2048 cells, 384 frame records, two-octet items low octet
first. -/
theorem identifyOctets_eq : identifyOctets = [0x08#8, 0x02#8, 0x02#8, 0x08#8, 0x00#8, 0x08#8, 0x80#8, 0x01#8] := by decide

/-- A WELCOME carries the reset cause and then the first three octets of the identification (Table 10.8). -/
theorem welcomeOctets_eq_cons (c : ResetCause) : welcomeOctets c = octet c.code :: identifyOctets.take 3 := rfl

/-! ## IDENTIFY -/

/-- The event of IDENTIFY answers with the identification, which reads nothing of the state. -/
theorem exec_identify {s : State} {tag : Byte} (h : s.Executes .identify tag []) :
    exec .identify s = .next (s.answered .identify tag .ok identifyOctets) :=
  congrArg Host.Outcome.next (h.knownEvent_eq identifyBody rfl)

/-! ## WELCOME -/

/-- A pending WELCOME is the first item a free serializer begins, at a tick and elsewhere (R168). -/
theorem serve_welcome (atTick : Bool) {s : State} (hfree : s.link.sending = none) (hitem : s.link.item = .welcome) :
    serve atTick s = beginWelcome s := by
  simp only [serve, hfree, hitem, Option.isSome_none, Bool.false_eq_true, if_false]

theorem sending_beginWelcome_payload (s : State) :
    (beginWelcome s).link.sending.map PartRecord.payload = some (welcomeOctets s.link.resetCause) := rfl

/-- Behind the reset cause a WELCOME holds the part code and the revision of the identification. -/
theorem serve_welcome_payload_tail (atTick : Bool) {s : State} (hfree : s.link.sending = none)
    (hitem : s.link.item = .welcome) :
    ((serve atTick s).link.sending.map PartRecord.payload).map (List.drop 1) = some (identifyOctets.take 3) := by
  rw [serve_welcome atTick hfree hitem, sending_beginWelcome_payload, welcomeOctets_eq_cons, Option.map_some,
    List.drop_one, List.tail_cons]

/-- Settles O45: the reply is the identification, and a WELCOME's octets behind its cause are the identification's first three. -/
theorem identifyReply : Obligations.IdentifyReply := by
  refine ⟨fun s tag h => ?reply, fun s hfree hitem => ?welcome⟩
  case reply => rw [exec_identify h, identifyOctets_eq]
  case welcome =>
    have htail : identifyOctets.take 3 = [0x08#8, 0x02#8, 0x02#8] := congrArg (List.take 3) identifyOctets_eq
    rw [serve_welcome_payload_tail false hfree hitem, serve_welcome_payload_tail true hfree hitem, htail]
    exact ⟨rfl, rfl⟩

end Sys2Proof.Machine

section
-- The proofs below are checked one after another: in parallel each waits for the others with a thread of its own.
set_option Elab.async false

/-! PROOFS. The store (R1, R2, R5, R6): the elementary changes of the cells, the frame records, the Tag Map and the reject slots, and
the laws that each of them keeps. -/

namespace Sys2Proof.Machine

/-! ## Sparse tables as lists of entries -/

section
variable {α : Type}

/-- A removal of a key that is not listed changes nothing. -/
theorem Table.del_of_get_eq_none {t : List (Nat × α)} {k : Nat} (h : Table.get t k = none) : Table.del t k = t := by
  induction t with
  | nil => rfl
  | cons p rest ih =>
    obtain ⟨j, v⟩ := p
    simp only [Table.get] at h
    split at h
    · cases h
    · rename_i hj
      simp only [Table.del, if_neg hj, ih h]

/-- What is listed under a key, and the rest of the table. -/
theorem Table.perm_cons_del {t : List (Nat × α)} {k : Nat} {v : α} (hw : Table.wf t) (h : Table.get t k = some v) :
    t.Perm ((k, v) :: Table.del t k) := by
  induction t with
  | nil => cases h
  | cons p rest ih =>
    obtain ⟨j, w⟩ := p
    obtain ⟨hp, hr⟩ := List.pairwise_cons.mp hw
    by_cases hj : j = k
    · subst hj
      simp only [Table.get, if_true] at h
      cases h
      have hrest : Table.del rest j = rest := Table.del_of_get_eq_none (Table.get_eq_none_of_lt hp)
      simp only [Table.del, if_true, hrest]
      exact .refl _
    · simp only [Table.get, if_neg hj] at h
      simp only [Table.del, if_neg hj]
      exact ((ih hr h).cons _).trans (.swap ..)

/-- A write puts its pair beside the rest of the table. -/
theorem Table.put_perm_cons_del {t : List (Nat × α)} (k : Nat) (v : α) (hw : Table.wf t) :
    (Table.put t k v).Perm ((k, v) :: Table.del t k) := by
  have hput := Table.perm_cons_del (Table.wf_put k v hw) (Table.get_put_self t k v)
  have hdel : Table.del (Table.put t k v) k = Table.del t k := by
    clear hput hw
    induction t with
    | nil => simp [Table.put, Table.del]
    | cons p rest ih =>
      obtain ⟨j, w⟩ := p
      by_cases h1 : k < j
      · simp [Table.put, Table.del, h1]
      · by_cases h2 : k = j
        · simp [Table.put, Table.del, h2]
        · simp [Table.put, Table.del, h1, h2, ih]
  rwa [hdel] at hput

/-- An index that the search for a free key finds is free. -/
theorem Table.get_of_lowestFree {t : List (Nat × α)} {size k : Nat} (h : Table.lowestFree t size = some k) :
    Table.get t k = none :=
  (Table.lowestFree_spec h).2.1

end

/-- A frame record that is read stands in the table. -/
theorem State.mem_of_frame {s : State} {i : Nat} {r : FrameRecord} (h : s.frame i = some r) : (i, r) ∈ s.store.frames :=
  Table.mem_of_get h

/-- A claim for a record gives a free one (R15). -/
theorem frame_of_claimRecord {k : FrameKind} {s : State} {i : Nat} (h : claimRecord k s = some i) : s.frame i = none := by
  unfold claimRecord at h
  cases k with
  | tx => exact Table.get_of_lowestFree (Option.ite_none_right_eq_some.mp h).2
  | rx => exact Table.get_of_lowestFree (Option.ite_none_right_eq_some.mp h).2

/-! ## The cells held by chains -/

/-- The cells of a frame's chain, first to last. -/
def FrameRecord.cells (r : FrameRecord) : List Nat := r.chain.map ChainCell.cell

/-- The cells that are in chains of other frames than this. -/
def State.heldBut (s : State) (i : Nat) : List Nat := (Table.del s.store.frames i).flatMap (fun p => p.2.cells)

theorem State.heldCells_of_frame {s : State} {i : Nat} {r : FrameRecord} (hw : Table.wf s.store.frames)
    (h : s.frame i = some r) : s.heldCells.Perm (r.cells ++ s.heldBut i) := by
  exact (Table.perm_cons_del hw h).flatMap_right (fun p => p.2.cells)

theorem State.heldCells_of_free {s : State} {i : Nat} (h : s.frame i = none) : s.heldCells = s.heldBut i := by
  rw [State.heldBut, Table.del_of_get_eq_none h]
  rfl

theorem State.heldCells_putFrame {s : State} (i : Nat) (q : FrameRecord) (hw : Table.wf s.store.frames) :
    (s.putFrame i q).heldCells.Perm (q.cells ++ s.heldBut i) := by
  exact (Table.put_perm_cons_del i q hw).flatMap_right (fun p => p.2.cells)

/-- The cells stand where they stood: a change of the pool and of one record that takes no cell and loses none. -/
theorem State.cellsKept_of_perm {s t : State} {i : Nat} {q : FrameRecord} (hs : s.cellsKept)
    (hframes : t.store.frames = Table.put s.store.frames i q)
    (hcells : (t.store.freeCells ++ (q.cells ++ s.heldBut i)).Perm (s.store.freeCells ++ s.heldCells)) : t.cellsKept := by
  obtain ⟨hw, hperm⟩ := hs
  refine ⟨hframes ▸ Table.wf_put i q hw, ?_⟩
  have hheld : t.heldCells.Perm (q.cells ++ s.heldBut i) := by
    have := State.heldCells_putFrame i q hw
    rwa [show t.heldCells = (s.putFrame i q).heldCells by simp [State.heldCells, State.putFrame, hframes]]
  exact (hheld.append_left _).trans (hcells.trans hperm)

/-! ## Chains (R2, R3) -/

/-- A chain is empty, or full cells before a last cell of 1 to 32 octets (R2). -/
theorem FrameRecord.chainKept_iff (r : FrameRecord) : r.chainKept ↔
    (r.chain = [] ∧ r.stored = 0) ∨
      ∃ front c, r.chain = front ++ [c] ∧ (∀ d ∈ front, d.fill = 32) ∧ 1 ≤ c.fill ∧ c.fill ≤ 32 ∧
        r.stored = 32 * front.length + c.fill := by
  have hfull : ∀ front : List ChainCell, (∀ d ∈ front, d.fill = 32) → (front.map ChainCell.fill).sum = 32 * front.length := by
    intro front h
    rw [List.map_congr_left (g := fun _ => 32) h]
    simp [Nat.mul_comm]
  unfold FrameRecord.chainKept
  rcases List.eq_nil_or_concat r.chain with hnil | ⟨front, c, hcat⟩
  · simp [hnil]
  · rw [List.concat_eq_append] at hcat
    simp only [hcat, List.dropLast_concat, List.getLast?_append, List.getLast?_singleton, Option.some_or, Option.mem_some_iff,
      forall_eq', List.map_append, List.sum_append, List.map_cons, List.map_nil, List.sum_singleton]
    constructor
    · rintro ⟨hfront, ⟨hlow, hhigh⟩, hstored⟩
      exact .inr ⟨front, c, rfl, hfront, hlow, hhigh, by rw [hstored, hfull front hfront]⟩
    · rintro (⟨h, -⟩ | ⟨front', c', h, hfront, hlow, hhigh, hstored⟩)
      · simp at h
      · obtain ⟨rfl, rfl⟩ := List.append_singleton_inj.mp h
        exact ⟨hfront, ⟨hlow, hhigh⟩, by rw [hstored, hfull front hfront]⟩

theorem FrameRecord.chainKept_nil {r : FrameRecord} (hchain : r.chain = []) (hstored : r.stored = 0) : r.chainKept :=
  r.chainKept_iff.mpr (.inl ⟨hchain, hstored⟩)

/-- Only the chain and the stored length tell whether the chain is as R2 describes it. -/
theorem FrameRecord.chainKept_congr {r q : FrameRecord} (hchain : q.chain = r.chain) (hstored : q.stored = r.stored)
    (h : r.chainKept) : q.chainKept := by
  simp only [FrameRecord.chainKept, hchain, hstored]
  exact h

/-- The chain after an append to its last cell (R3). -/
theorem FrameRecord.chainKept_fill {r : FrameRecord} {c : ChainCell} (h : r.chainKept) (hlast : r.chain.getLast? = some c)
    (hroom : c.fill < 32) :
    FrameRecord.chainKept { r with chain := r.chain.dropLast ++ [{ c with fill := c.fill + 1 }], stored := r.stored + 1 } := by
  rcases r.chainKept_iff.mp h with ⟨hnil, -⟩ | ⟨front, d, hchain, hfull, hlow, hhigh, hstored⟩
  · simp [hnil] at hlast
  · have hd : d = c := by simpa [hchain] using hlast
    subst hd
    refine (FrameRecord.chainKept_iff _).mpr (.inr ⟨front, { d with fill := d.fill + 1 }, by simp [hchain], hfull, ?_, hroom, ?_⟩)
    · exact Nat.le_add_left 1 _
    · simp only [hstored]
      omega

/-- The chain after an append to a cell claimed for it (R3). -/
theorem FrameRecord.chainKept_grow {r : FrameRecord} (c : Nat) (h : r.chainKept)
    (hlast : ∀ d, r.chain.getLast? = some d → 32 ≤ d.fill) :
    FrameRecord.chainKept { r with chain := r.chain ++ [{ cell := c, fill := 1 }], stored := r.stored + 1 } := by
  rcases r.chainKept_iff.mp h with ⟨hnil, hzero⟩ | ⟨front, d, hchain, hfull, hlow, hhigh, hstored⟩
  · exact (FrameRecord.chainKept_iff _).mpr
      (.inr ⟨[], { cell := c, fill := 1 }, by simp [hnil], by simp, by simp, by simp, by simp [hzero]⟩)
  · have hd : d.fill = 32 := Nat.le_antisymm hhigh (hlast d (by simp [hchain]))
    refine (FrameRecord.chainKept_iff _).mpr (.inr ⟨front ++ [d], { cell := c, fill := 1 }, by simp [hchain], ?_, by simp, by simp, ?_⟩)
    · intro e he
      rcases List.mem_append.mp he with he | he
      · exact hfull e he
      · rw [List.mem_singleton.mp he, hd]
    · simp only [hstored, hd, List.length_append, List.length_singleton]
      omega

/-- The three shapes of a chain at a trim, by the fill count of its last cell (R3). -/
theorem trimmedChain_append (front : List ChainCell) (c : ChainCell) :
    (3 ≤ c.fill → trimmedChain (front ++ [c]) = (front ++ [{ c with fill := c.fill - 2 }], [])) ∧
      (c.fill = 2 → trimmedChain (front ++ [c]) = (front, [c.cell])) ∧
      (c.fill < 2 → front = [] → trimmedChain (front ++ [c]) = ([], [c.cell])) ∧
      ∀ before p, c.fill < 2 → front = before ++ [p] →
        trimmedChain (front ++ [c]) = (before ++ [{ p with fill := 31 }], [c.cell]) := by
  have hlast : (front ++ [c]).getLast? = some c := by simp
  have hfront : (front ++ [c]).dropLast = front := List.dropLast_concat
  refine ⟨fun h => ?_, fun h => ?_, fun h hnil => ?_, fun before p h hcat => ?_⟩
  · simp [trimmedChain, hlast, hfront, h]
  · simp [trimmedChain, hlast, hfront, h]
  · have h3 : ¬ 3 ≤ c.fill := by omega
    have h2 : ¬ c.fill = 2 := by omega
    simp [trimmedChain, h3, h2, hnil]
  · have h3 : ¬ 3 ≤ c.fill := by omega
    have h2 : ¬ c.fill = 2 := by omega
    subst hcat
    simp [trimmedChain, h3, h2]

/-- A trim loses no cell: each stays in the chain or leaves it for the pool (R3, R9). -/
theorem trimmedChain_cells (chain : List ChainCell) :
    ((trimmedChain chain).1.map ChainCell.cell ++ (trimmedChain chain).2) = chain.map ChainCell.cell := by
  rcases List.eq_nil_or_concat chain with rfl | ⟨front, c, rfl⟩
  · rfl
  · rw [List.concat_eq_append]
    obtain ⟨hmany, htwo, hone, hback⟩ := trimmedChain_append front c
    by_cases h3 : 3 ≤ c.fill
    · simp [hmany h3]
    · by_cases h2 : c.fill = 2
      · simp [htwo h2]
      · have hlt : c.fill < 2 := by omega
        rcases List.eq_nil_or_concat front with hnil | ⟨before, p, hcat⟩
        · rw [hone hlt hnil]
          simp [hnil]
        · rw [List.concat_eq_append] at hcat
          rw [hback before p hlt hcat]
          simp [hcat]

/-- The chain after a trim (R3). -/
theorem FrameRecord.chainKept_trim {r : FrameRecord} (h : r.chainKept) :
    FrameRecord.chainKept { r with chain := (trimmedChain r.chain).1, stored := r.stored - 2 } := by
  rcases r.chainKept_iff.mp h with ⟨hnil, hzero⟩ | ⟨front, c, hchain, hfull, hlow, hhigh, hstored⟩
  · exact FrameRecord.chainKept_nil (by simp [hnil, trimmedChain]) (by simp [hzero])
  · rw [hchain, hstored]
    obtain ⟨hmany, htwo, hone, hback⟩ := trimmedChain_append front c
    refine (FrameRecord.chainKept_iff _).mpr ?_
    rcases Nat.lt_trichotomy c.fill 2 with hlt | heq | hgt
    · rcases List.eq_nil_or_concat front with hnil | ⟨before, p, hcat⟩
      · refine .inl ⟨by rw [hone hlt hnil], ?_⟩
        simp only [hnil, List.length_nil]
        omega
      · rw [List.concat_eq_append] at hcat
        refine .inr ⟨before, { p with fill := 31 }, by rw [hback before p hlt hcat], ?_, by simp, by simp, ?_⟩
        · exact fun d hd => hfull d (by simp [hcat, hd])
        · simp only [hcat, List.length_append, List.length_singleton]
          omega
    · rw [htwo heq]
      rcases List.eq_nil_or_concat front with hnil | ⟨before, p, hcat⟩
      · exact .inl ⟨hnil, by simp [hnil, heq]⟩
      · rw [List.concat_eq_append] at hcat
        have hp : p.fill = 32 := hfull p (by simp [hcat])
        refine .inr ⟨before, p, hcat, fun d hd => hfull d (by simp [hcat, hd]), by omega, by omega, ?_⟩
        simp only [hcat, List.length_append, List.length_singleton]
        omega
    · refine .inr ⟨front, _, by rw [hmany hgt], hfull, ?_, ?_, ?_⟩ <;> simp only <;> omega

end Sys2Proof.Machine

end

section
-- The proofs below are checked one after another: in parallel each waits for the others with a thread of its own.
set_option Elab.async false

/-! PROOFS. The elementary changes of the store, the Tag Map and the reject slots, and the laws of Chapter 1 that each of them keeps. -/

namespace Sys2Proof.Machine

/-! ## The elementary changes -/

/-- One elementary change of the store, the Tag Map and the reject slots; of the rest of the state it says nothing. -/
inductive StoreMove : State → State → Prop
  /-- the store stays as it is, and the two tables are in canonical form if they were -/
  | aside {s t : State} (hstore : t.store = s.store := by rfl) (htags : Table.wf s.tags → Table.wf t.tags := by exact id)
      (hrejects : Table.wf s.rejects → Table.wf t.rejects := by exact id) : StoreMove s t
  /-- fields other than the chain and the stored length change in an allocated record -/
  | edit (s : State) {i : Nat} {r q : FrameRecord} (h : s.frame i = some r) (hchain : q.chain = r.chain := by rfl)
      (hstored : q.stored = r.stored := by rfl) : StoreMove s (s.putFrame i q)
  /-- those of every record -/
  | editAll (s : State) (f : FrameRecord → FrameRecord) (h : ∀ r, (f r).chain = r.chain ∧ (f r).stored = r.stored) :
      StoreMove s { s with store := { s.store with frames := s.store.frames.map (fun p => (p.1, f p.2)) } }
  /-- a record without octets is allocated -/
  | create (s : State) {i : Nat} {r : FrameRecord} (h : s.frame i = none) (hchain : r.chain = [] := by rfl)
      (hstored : r.stored = 0 := by rfl) : StoreMove s (s.putFrame i r)
  /-- an octet is appended (R3) -/
  | append {k : CellClaim} {i : Nat} {b : Byte} {s t : State} (h : appendOctet k i b s = some t) : StoreMove s t
  /-- the two CRC octets of a frame are trimmed (R3) -/
  | trim (i : Nat) (s : State) : StoreMove s (trimFrame i s)
  /-- a chain is released (R9) -/
  | release (i : Nat) (s : State) : StoreMove s (releaseChain i s)
  /-- a record whose chain is empty returns to the pool (R16) -/
  | delete (s : State) (i : Nat) (h : ∀ r, s.frame i = some r → r.chain = []) :
      StoreMove s { s with store := { s.store with frames := Table.del s.store.frames i } }
  /-- a reset -/
  | reset {s t : State} (octets : List Host.Cell) (hstore : t.store = .reset octets)
      (hoctets : Memory.wf s.store.octets → Memory.wf octets) (htags : t.tags = []) (hrejects : t.rejects = []) : StoreMove s t

/-- Elementary changes one after another. -/
abbrev StoreMoves : State → State → Prop := Relation.ReflTransGen StoreMove

theorem StoreMove.moves {s t : State} (h : StoreMove s t) : StoreMoves s t := .single h

/-- What each elementary change keeps, any number of them keep. -/
theorem StoreMoves.keeps {P : State → Prop} (hmove : ∀ s t, StoreMove s t → P s → P t) {s t : State} (h : StoreMoves s t)
    (hs : P s) : P t := by
  induction h with
  | refl => exact hs
  | tail _ hlast ih => exact hmove _ _ hlast ih

/-! ## The laws -/

/-- What the release of a chain is, where there is a record (R9). -/
theorem releaseChain_of_frame {s : State} {i : Nat} {r : FrameRecord} (h : s.frame i = some r) :
    releaseChain i s =
      State.putFrame { s with store := { s.store with freeCells := s.store.freeCells ++ r.cells } } i
        { r with chain := [], stored := 0 } := by
  simp only [releaseChain, h]
  rfl

theorem releaseChain_of_free {s : State} {i : Nat} (h : s.frame i = none) : releaseChain i s = s := by
  simp only [releaseChain, h]

/-- What a trim is, where there is a record (R3, R9). -/
theorem trimFrame_of_frame {s : State} {i : Nat} {r : FrameRecord} (h : s.frame i = some r) :
    trimFrame i s =
      State.putFrame { s with store := { s.store with freeCells := s.store.freeCells ++ (trimmedChain r.chain).2 } } i
        { r with chain := (trimmedChain r.chain).1, stored := r.stored - 2 } := by
  simp only [trimFrame, h]

theorem trimFrame_of_free {s : State} {i : Nat} (h : s.frame i = none) : trimFrame i s = s := by
  simp only [trimFrame, h]

/-- The chains of a table all of whose other records were there before. -/
theorem State.chainsKept_of_put {s t : State} {i : Nat} {q : FrameRecord} (hs : s.chainsKept)
    (hframes : t.store.frames = Table.put s.store.frames i q) (hq : q.chainKept) : t.chainsKept := by
  intro p hp
  rw [hframes] at hp
  rcases Table.mem_put hp with rfl | hp
  · exact hq
  · exact hs p hp

/-- R5, R6: every elementary change leaves every cell in one place. -/
theorem StoreMove.cellsKept {s t : State} (h : StoreMove s t) (hs : s.cellsKept) : t.cellsKept := by
  have hperm := hs.2
  cases h with
  | aside hstore _ _ =>
    simp only [State.cellsKept, State.heldCells, hstore]
    exact hs
  | edit _ hr hchain _ =>
    refine State.cellsKept_of_perm hs rfl (List.Perm.append_left _ ?_)
    rw [FrameRecord.cells, hchain]
    exact (State.heldCells_of_frame hs.1 hr).symm
  | editAll _ f hf =>
    refine ⟨Table.wf_map _ hs.1, ?_⟩
    have hheld : State.heldCells { s with store := { s.store with frames := s.store.frames.map (fun p => (p.1, f p.2)) } } =
        s.heldCells := by
      simp [State.heldCells, List.flatMap_map, (hf _).1]
    rw [hheld]
    exact hperm
  | create _ hfree hchain _ =>
    refine State.cellsKept_of_perm hs rfl (List.Perm.append_left _ ?_)
    rw [FrameRecord.cells, hchain, State.heldCells_of_free hfree]
    exact .refl _
  | append happend =>
    obtain ⟨r, hr, ⟨c, hlast, _, rfl⟩ | ⟨c, u, _, hclaim, rfl⟩⟩ := appendOctet_eq_some happend
    · refine State.cellsKept_of_perm hs rfl (List.Perm.append_left _ ?_)
      have hchain : r.chain = r.chain.dropLast ++ [c] := (List.dropLast_append_getLast? c hlast).symm
      refine List.Perm.trans (List.Perm.of_eq ?_) (State.heldCells_of_frame hs.1 hr).symm
      conv_rhs => rw [FrameRecord.cells, hchain]
      simp [FrameRecord.cells]
    · obtain ⟨hpool, hu⟩ := claimCell_eq_some hclaim
      rw [hu]
      refine State.cellsKept_of_perm hs rfl ?_
      have hheld := State.heldCells_of_frame hs.1 hr
      simp only [List.perm_iff_count] at hheld ⊢
      intro a
      simp [hheld a, hpool, FrameRecord.cells, List.count_cons]
      omega
  | trim i =>
    cases hr : s.frame i with
    | none => rwa [trimFrame_of_free hr]
    | some r =>
      rw [trimFrame_of_frame hr]
      refine State.cellsKept_of_perm hs rfl ?_
      have hheld := State.heldCells_of_frame hs.1 hr
      simp only [List.perm_iff_count] at hheld ⊢
      intro a
      have hcell := congrFun (congrArg (fun l a => List.count a l) (trimmedChain_cells r.chain)) a
      simp only [List.count_append] at hcell
      simp only [putFrame_freeCells, List.count_append, hheld a, FrameRecord.cells]
      omega
  | release i =>
    cases hr : s.frame i with
    | none => rwa [releaseChain_of_free hr]
    | some r =>
      rw [releaseChain_of_frame hr]
      refine State.cellsKept_of_perm hs rfl ?_
      have hheld := State.heldCells_of_frame hs.1 hr
      simpa [FrameRecord.cells] using hheld.symm.append_left s.store.freeCells
  | delete _ i hchain =>
    refine ⟨Table.wf_del i hs.1, ?_⟩
    have hheld : s.heldCells.Perm (s.heldBut i) := by
      cases hr : s.frame i with
      | none => rw [State.heldCells_of_free hr]
      | some r => simpa [FrameRecord.cells, hchain r hr] using State.heldCells_of_frame hs.1 hr
    exact (hheld.symm.append_left _).trans hperm
  | reset octets hstore _ _ _ => simp [State.cellsKept, State.heldCells, hstore, Store.reset]

/-- R2: every elementary change leaves every chain as R2 describes it. -/
theorem StoreMove.chainsKept {s t : State} (h : StoreMove s t) (hs : s.chainsKept) : t.chainsKept := by
  have hat : ∀ {i r}, s.frame i = some r → r.chainKept := fun hr => hs _ (State.mem_of_frame hr)
  cases h with
  | aside hstore _ _ =>
    simp only [State.chainsKept, hstore]
    exact hs
  | edit _ hr hchain hstored => exact State.chainsKept_of_put hs rfl (FrameRecord.chainKept_congr hchain hstored (hat hr))
  | editAll _ f hf =>
    intro p hp
    obtain ⟨q, hq, rfl⟩ := List.mem_map.mp hp
    exact FrameRecord.chainKept_congr (hf _).1 (hf _).2 (hs q hq)
  | create _ _ hchain hstored => exact State.chainsKept_of_put hs rfl (FrameRecord.chainKept_nil hchain hstored)
  | append happend =>
    obtain ⟨r, hr, ⟨c, hlast, hroom, rfl⟩ | ⟨c, u, hfull, hclaim, rfl⟩⟩ := appendOctet_eq_some happend
    · exact State.chainsKept_of_put hs rfl (FrameRecord.chainKept_fill (hat hr) hlast hroom)
    · rw [(claimCell_eq_some hclaim).2]
      exact State.chainsKept_of_put hs rfl (FrameRecord.chainKept_grow c (hat hr) hfull)
  | trim i =>
    cases hr : s.frame i with
    | none => rwa [trimFrame_of_free hr]
    | some r =>
      rw [trimFrame_of_frame hr]
      exact State.chainsKept_of_put hs rfl (FrameRecord.chainKept_trim (hat hr))
  | release i =>
    cases hr : s.frame i with
    | none => rwa [releaseChain_of_free hr]
    | some r =>
      rw [releaseChain_of_frame hr]
      exact State.chainsKept_of_put hs rfl (FrameRecord.chainKept_nil rfl rfl)
  | delete _ i _ => exact fun p hp => hs p (Table.mem_del hp)
  | reset octets hstore _ _ _ => simp [State.chainsKept, hstore, Store.reset]

/-- Every elementary change leaves the tables in canonical form. -/
theorem StoreMove.tablesKept {s t : State} (h : StoreMove s t) (hs : s.tablesKept) : t.tablesKept := by
  obtain ⟨hoctets, hframes, htags, hrejects⟩ := hs
  cases h with
  | aside hstore ht hr =>
    simp only [State.tablesKept, hstore]
    exact ⟨hoctets, hframes, ht htags, hr hrejects⟩
  | edit _ _ _ _ => exact ⟨hoctets, Table.wf_put _ _ hframes, htags, hrejects⟩
  | editAll _ f _ => exact ⟨hoctets, Table.wf_map _ hframes, htags, hrejects⟩
  | create _ _ _ _ => exact ⟨hoctets, Table.wf_put _ _ hframes, htags, hrejects⟩
  | append happend =>
    obtain ⟨r, hr, ⟨c, hlast, hroom, rfl⟩ | ⟨c, u, hfull, hclaim, rfl⟩⟩ := appendOctet_eq_some happend
    · exact ⟨memoryWf_writeOctet _ _ hoctets, Table.wf_put _ _ hframes, htags, hrejects⟩
    · rw [(claimCell_eq_some hclaim).2]
      exact ⟨memoryWf_writeOctet _ _ hoctets, Table.wf_put _ _ hframes, htags, hrejects⟩
  | trim i =>
    cases hr : s.frame i with
    | none => rw [trimFrame_of_free hr]; exact ⟨hoctets, hframes, htags, hrejects⟩
    | some r => rw [trimFrame_of_frame hr]; exact ⟨hoctets, Table.wf_put _ _ hframes, htags, hrejects⟩
  | release i =>
    cases hr : s.frame i with
    | none => rw [releaseChain_of_free hr]; exact ⟨hoctets, hframes, htags, hrejects⟩
    | some r => rw [releaseChain_of_frame hr]; exact ⟨hoctets, Table.wf_put _ _ hframes, htags, hrejects⟩
  | delete _ i _ => exact ⟨hoctets, Table.wf_del i hframes, htags, hrejects⟩
  | reset octets hstore ho ht hr =>
    simp only [State.tablesKept, hstore, ht, hr]
    exact ⟨ho hoctets, Table.wf_nil, Table.wf_nil, Table.wf_nil⟩

end Sys2Proof.Machine

end

section
-- The proofs below are checked one after another: in parallel each waits for the others with a thread of its own.
set_option Elab.async false

/-! PROOFS. Every operation of the part is made of elementary changes of the store. -/

namespace Sys2Proof.Machine

/-! ## Changes beside the store -/

/-- The store, the Tag Map and the reject slots stay as they are. -/
theorem storeMoves_of_eq {s t : State} (hstore : t.store = s.store) (htags : t.tags = s.tags) (hrejects : t.rejects = s.rejects) :
    StoreMoves s t :=
  (StoreMove.aside hstore (fun h => htags ▸ h) (fun h => hrejects ▸ h)).moves

theorem storeMoves_modLine (s : State) (n : LineNo) (f : Line → Line) : StoreMoves s (s.modLine n f) :=
  storeMoves_of_eq rfl rfl rfl

theorem storeMoves_modLink (s : State) (f : HostLink → HostLink) : StoreMoves s (s.modLink f) := storeMoves_of_eq rfl rfl rfl

theorem storeMoves_joinReply (r : Reply) (s : State) : StoreMoves s (joinReply r s) := storeMoves_of_eq rfl rfl rfl

theorem storeMoves_endExecution (s : State) : StoreMoves s (endExecution s) := storeMoves_of_eq rfl rfl rfl

theorem storeMoves_countStray (s : State) : StoreMoves s (countStray s) := storeMoves_of_eq rfl rfl rfl

theorem storeMoves_stallHead (s : State) : StoreMoves s (stallHead s) := storeMoves_modLink ..

/-- Elementary changes in a fold. -/
theorem storeMoves_foldl {β : Type} (f : State → β → State) (h : ∀ s b, StoreMoves s (f s b)) (bs : List β) (s : State) :
    StoreMoves s (bs.foldl f s) := by
  induction bs generalizing s with
  | nil => exact .refl
  | cons b bs ih => exact (h s b).trans (ih _)

/-! ## Frame records -/

theorem storeMoves_putFrame {s : State} {i : Nat} {r q : FrameRecord} (h : s.frame i = some r)
    (hchain : q.chain = r.chain := by rfl) (hstored : q.stored = r.stored := by rfl) : StoreMoves s (s.putFrame i q) :=
  (StoreMove.edit s h hchain hstored).moves

theorem storeMoves_modFrame (s : State) (i : Nat) (f : FrameRecord → FrameRecord)
    (h : ∀ r, (f r).chain = r.chain ∧ (f r).stored = r.stored := by exact fun _ => ⟨rfl, rfl⟩) : StoreMoves s (s.modFrame i f) := by
  unfold State.modFrame
  split
  · exact .refl
  · exact storeMoves_putFrame ‹_› (h _).1 (h _).2

theorem storeMoves_appendOctets (k : CellClaim) (i : Nat) (bs : List Byte) (s : State) :
    StoreMoves s (appendOctets k i bs s).1 := by
  induction bs generalizing s with
  | nil => exact .refl
  | cons b bs ih =>
    simp only [appendOctets]
    split
    · exact .refl
    · exact (StoreMove.append ‹_›).moves.trans (ih _)

theorem frame_releaseChain_self (s : State) (i : Nat) :
    (releaseChain i s).frame i = (s.frame i).map (fun r => { r with chain := [], stored := 0 }) := by
  cases h : s.frame i with
  | none => rw [releaseChain_of_free h, h, Option.map_none]
  | some r => rw [releaseChain_of_frame h, State.frame_putFrame_self, Option.map_some]

theorem storeMoves_freeFrame (i : Nat) (s : State) : StoreMoves s (freeFrame i s) := by
  refine (StoreMove.release i s).moves.trans (StoreMove.delete _ i fun r hr => ?_).moves
  obtain ⟨q, _, rfl⟩ := Option.map_eq_some_iff.mp ((frame_releaseChain_self s i).symm.trans hr)
  rfl

/-! ## Completion -/

theorem storeMoves_enterDone (how : DoneTally) (i : Nat) (s : State) : StoreMoves s (enterDone how i s) := by
  unfold enterDone
  split
  · exact .refl
  · rename_i r hr
    refine Relation.ReflTransGen.trans ?_ (storeMoves_modLine ..)
    refine Relation.ReflTransGen.trans ?_ (storeMoves_putFrame (r := r) hr)
    exact (StoreMove.aside (htags := Table.wf_del _)).moves

theorem storeMoves_enterDiscarding (i : Nat) (s : State) : StoreMoves s (enterDiscarding i s) := by
  unfold enterDiscarding
  split
  · exact .refl
  · split
    · exact storeMoves_enterDone ..
    · exact storeMoves_putFrame ‹_ = some _›

theorem storeMoves_leaveQueue (i : Nat) (s : State) : StoreMoves s (leaveQueue i s) := by
  unfold leaveQueue
  split
  · exact .refl
  · split
    · exact storeMoves_modLine ..
    · exact storeMoves_modLine ..

theorem storeMoves_failFrame (o : FrameOutcome) (i : Nat) (s : State) : StoreMoves s (failFrame o i s) := by
  unfold failFrame
  split
  · exact .refl
  · rename_i r hr
    have hfix : StoreMoves s (s.putFrame i (r.fixOutcome o)) := storeMoves_putFrame hr
    have hout := hfix.trans ((storeMoves_leaveQueue i _).trans (StoreMove.release i _).moves)
    have hended : StoreMoves s (if r.complete then
        enterDone .completed i (releaseChain i (leaveQueue i (s.putFrame i (r.fixOutcome o))))
        else enterDiscarding i (releaseChain i (leaveQueue i (s.putFrame i (r.fixOutcome o))))) := by
      split
      · exact hout.trans (storeMoves_enterDone ..)
      · exact hout.trans (storeMoves_enterDiscarding ..)
    split
    · exact hended
    · exact hended
    · exact hfix
    · exact .refl

theorem storeMoves_expireLine (n : LineNo) (s : State) : StoreMoves s (expireLine n s) := by
  unfold expireLine
  dsimp only
  split
  · exact .refl
  · exact storeMoves_foldl _ (fun t i => storeMoves_failFrame .expired i t) _ s

theorem storeMoves_flushQueued (i : Nat) (s : State) : StoreMoves s (flushQueued i s) := by
  unfold flushQueued
  split
  · exact .refl
  · exact (storeMoves_putFrame ‹_ = some _›).trans ((storeMoves_leaveQueue ..).trans
      ((StoreMove.release ..).moves.trans (storeMoves_enterDone ..)))

theorem storeMoves_finishDiscarding (n : LineNo) (s : State) : StoreMoves s (finishDiscarding n s) :=
  storeMoves_foldl _ (fun t i => storeMoves_enterDone .flushed i t) _ s

theorem storeMoves_flushHandling (n : LineNo) (s : State) : StoreMoves s (flushHandling n s) := by
  have hqueued := (storeMoves_foldl (fun t i => flushQueued i t) (fun t i => storeMoves_flushQueued i t) (s.line n).queued s).trans
    (storeMoves_finishDiscarding n _)
  unfold flushHandling
  dsimp only
  refine Relation.ReflTransGen.trans ?_ (storeMoves_modLine ..)
  split
  · exact hqueued
  · exact hqueued.trans (storeMoves_failFrame ..)

/-! ## Receiver -/

theorem storeMoves_discardAssembly (n : LineNo) (x : RxState) (s : State) : StoreMoves s (discardAssembly n x s) := by
  unfold discardAssembly
  split
  · exact storeMoves_modLine ..
  · exact (storeMoves_freeFrame ..).trans (storeMoves_modLine ..)

theorem storeMoves_loseFrame (n : LineNo) (s : State) : StoreMoves s (loseFrame n s) :=
  (storeMoves_modLine ..).trans (storeMoves_modLine ..)

theorem storeMoves_beginFrame (n : LineNo) (length : Nat) (header : List Byte) (s : State) :
    StoreMoves s (beginFrame n length header s) := by
  unfold beginFrame
  dsimp only
  split
  · exact (StoreMove.create s (frame_of_claimRecord ‹_ = some _›)).moves.trans (storeMoves_modLine ..)
  · exact (storeMoves_loseFrame ..).trans (storeMoves_modLine ..)

theorem storeMoves_placeFrame (n : LineNo) (i : Nat) (s : State) : StoreMoves s (placeFrame n i s) := by
  have hnumbered := storeMoves_modLine s n (fun l =>
    { l with rx := { l.rx with nextNumber := (l.rx.nextNumber + 1) % 65536, pendingLoss := false } })
  have happend (t : State) (number : Nat) (loss : Bool) (g : Line → Line) : StoreMoves t
      (countRxFrame n ((t.modFrame i (fun r => { r with state := .queued, number := number, lossMark := loss })).modLine n g)) :=
    (storeMoves_modFrame t i _).trans ((storeMoves_modLine ..).trans (storeMoves_modLine ..))
  have hlost := hnumbered.trans ((storeMoves_freeFrame i _).trans (storeMoves_loseFrame n _))
  unfold placeFrame
  dsimp only
  split
  · exact hnumbered.trans (happend ..)
  · split
    · exact hlost
    · split
      · exact hlost
      · exact hnumbered.trans ((storeMoves_freeFrame ..).trans ((storeMoves_modLine ..).trans
          ((happend ..).trans (storeMoves_modLine ..))))

theorem storeMoves_disposeFrame (n : LineNo) (i : Nat) (o : FrameOutcome) (trim : Bool) (s : State) :
    StoreMoves s (disposeFrame n i o trim s) := by
  unfold disposeFrame
  split
  · refine (storeMoves_modFrame s i (fun r => r.fixOutcome o)).trans
      (Relation.ReflTransGen.trans ?_ (storeMoves_placeFrame ..))
    split
    · exact (StoreMove.trim ..).moves
    · exact .refl
  · exact (storeMoves_freeFrame ..).trans (storeMoves_modLine ..)

theorem storeMoves_endGapFrame (n : LineNo) (s : State) : StoreMoves s (endGapFrame n s) := by
  unfold endGapFrame
  dsimp only
  split
  · exact storeMoves_modLine ..
  · split
    · exact (storeMoves_modLine ..).trans ((storeMoves_freeFrame ..).trans (storeMoves_modLine ..))
    · exact (storeMoves_modLine ..).trans (storeMoves_disposeFrame ..)

theorem storeMoves_assembleCharacter (n : LineNo) (c : ReceivedCharacter) (s : State) :
    StoreMoves s (assembleCharacter n c s) := by
  have hcounted := storeMoves_modLine s n (fun l => { l with rx := { l.rx with count := l.rx.count + 1 } })
  unfold assembleCharacter
  dsimp only
  split
  · exact hcounted
  · split
    · exact hcounted.trans ((storeMoves_discardAssembly ..).trans (storeMoves_modLine ..))
    · split
      · exact hcounted.trans ((storeMoves_discardAssembly ..).trans (storeMoves_loseFrame ..))
      · exact hcounted.trans ((StoreMove.append ‹_›).moves.trans (storeMoves_modLine ..))

theorem storeMoves_endSyncFrame (n : LineNo) (b : Byte) (s : State) : StoreMoves s (endSyncFrame n b s) := by
  unfold endSyncFrame
  dsimp only
  split
  · exact storeMoves_modLine ..
  · exact (storeMoves_modLine ..).trans (storeMoves_disposeFrame ..)

theorem storeMoves_assembleSyncOctet (n : LineNo) (b : Byte) (s : State) : StoreMoves s (assembleSyncOctet n b s) := by
  have hcounted := storeMoves_modLine s n (fun l =>
    { l with rx := { l.rx with count := l.rx.count + 1, toCome := l.rx.toCome - 1 } })
  unfold assembleSyncOctet
  dsimp only
  split
  · split
    · exact hcounted
    · split
      · exact hcounted.trans ((storeMoves_discardAssembly ..).trans (storeMoves_loseFrame ..))
      · exact hcounted.trans ((StoreMove.append ‹_›).moves.trans (storeMoves_modLine ..))
  · split
    · exact hcounted.trans (storeMoves_modLine ..)
    · exact hcounted.trans (storeMoves_endSyncFrame ..)

theorem storeMoves_takePair (n : LineNo) (high low : Byte) (s : State) : StoreMoves s (takePair n high low s) := by
  unfold takePair
  dsimp only
  split
  · exact .refl
  · split
    · exact storeMoves_modLine ..
    · split
      · exact storeMoves_modLine ..
      · split
        · exact storeMoves_beginFrame ..
        · exact (storeMoves_modLine ..).trans (storeMoves_modLine ..)

/-- Discarding the frame in assembly with its count in RX_ERRORS. -/
theorem storeMoves_discardCounted (n : LineNo) (x : RxState) (s : State) :
    StoreMoves s (countRxError n (discardAssembly n x s)) :=
  (storeMoves_discardAssembly ..).trans (storeMoves_modLine ..)

theorem storeMoves_gateReceiver (n : LineNo) (s : State) : StoreMoves s (gateReceiver n s) := by
  unfold gateReceiver
  cases (s.line n).rx.state
  case assembling => exact storeMoves_discardCounted ..
  case off | gated | muted => exact .refl
  case idle | discard | breaking | seek | synced => exact storeMoves_modLine ..

theorem storeMoves_detectBreak (n : LineNo) (s : State) : StoreMoves s (detectBreak n s) := by
  unfold detectBreak
  cases (s.line n).rx.state
  case assembling =>
    dsimp only
    split
    · exact storeMoves_discardCounted ..
    · exact storeMoves_discardAssembly ..
  case idle | discard => exact storeMoves_modLine ..
  case off | gated | muted | breaking | seek | synced => exact .refl

theorem storeMoves_seekReceiver (n : LineNo) (s : State) : StoreMoves s (seekReceiver n s) := by
  unfold seekReceiver
  cases (s.line n).rx.state
  case assembling => exact storeMoves_discardCounted ..
  case synced | discard => exact storeMoves_modLine ..
  case off | gated | muted | breaking | seek | idle => exact .refl

theorem storeMoves_closeReceiver (n : LineNo) (s : State) : StoreMoves s (closeReceiver n s) := by
  unfold closeReceiver
  split
  · exact storeMoves_discardCounted ..
  · exact storeMoves_modLine ..

/-! ## Transmitter -/

theorem storeMoves_takeFrame (n : LineNo) (i : Nat) (s : State) : StoreMoves s (takeFrame n i s) := by
  unfold takeFrame
  exact (storeMoves_modFrame s i _).trans (storeMoves_modLine _ n _)

theorem storeMoves_selectNext (atTick : Bool) (n : LineNo) (s : State) : StoreMoves s (selectNext atTick n s) := by
  unfold selectNext
  dsimp only
  split
  · split
    · split
      · exact storeMoves_modLine ..
      · exact storeMoves_modLine ..
    · split
      · exact storeMoves_modLine ..
      · split
        · exact storeMoves_modLine ..
        · exact storeMoves_takeFrame ..
  · exact .refl

theorem storeMoves_judgeClosed (n : LineNo) (s : State) : StoreMoves s (judgeClosed n s) := by
  unfold judgeClosed
  split
  · exact (storeMoves_finishDiscarding ..).trans (storeMoves_modLine ..)
  · exact .refl

theorem storeMoves_settleLine (atTick : Bool) (n : LineNo) (s : State) : StoreMoves s (settleLine atTick n s) :=
  (storeMoves_selectNext ..).trans ((storeMoves_judgeClosed ..).trans (storeMoves_modLine ..))

theorem storeMoves_settleAt (atTick : Bool) (n : Option LineNo) (s : State) : StoreMoves s (settleAt atTick n s) := by
  unfold settleAt
  split
  · exact .refl
  · exact storeMoves_settleLine ..

theorem storeMoves_endFrame (n : LineNo) (i : Nat) (s : State) : StoreMoves s (endFrame n i s) := by
  have hgap := (storeMoves_modLine s n
    (fun l => { l with tx := { l.tx with current := none, octet := none, gapAfterBreak := false, state := .gap } })).trans
    (StoreMove.release i _).moves
  unfold endFrame
  dsimp only
  split
  · exact hgap
  · split
    · exact hgap.trans ((storeMoves_putFrame ‹_ = some _›).trans ((storeMoves_enterDone ..).trans (storeMoves_modLine ..)))
    · refine hgap.trans (Relation.ReflTransGen.trans ?_ (storeMoves_modLine ..))
      split
      · exact storeMoves_enterDone ..
      · exact storeMoves_enterDiscarding ..

theorem storeMoves_endLeadin (n : LineNo) (i : Nat) (s : State) : StoreMoves s (endLeadin n i s) := by
  unfold endLeadin
  split
  · exact .refl
  · split
    · exact storeMoves_endFrame ..
    · exact storeMoves_modLine ..

theorem storeMoves_octetBoundary (n : LineNo) (i : Nat) (s : State) : StoreMoves s (octetBoundary n i s) := by
  have hcounted : StoreMoves s
      (if (s.line n).tx.octet.isSome then s.modFrame i (fun r => { r with sentCount := r.sentCount + 1 }) else s) := by
    split
    · exact storeMoves_modFrame ..
    · exact .refl
  unfold octetBoundary
  dsimp only
  split
  · exact .refl
  · split
    · exact hcounted.trans (storeMoves_modLine ..)
    · split
      · exact hcounted.trans (storeMoves_modLine ..)
      · split
        · exact hcounted.trans (storeMoves_modLine ..)
        · exact hcounted.trans ((storeMoves_putFrame ‹_ = some _›).trans (storeMoves_modLine ..))

theorem storeMoves_endBreak (n : LineNo) (status : ReplyStatus) (s : State) : StoreMoves s (endBreak n status s) := by
  unfold endBreak
  split
  · exact .refl
  · exact (storeMoves_modLine ..).trans (storeMoves_joinReply ..)

/-! ## Segments -/

theorem storeMoves_storeData (i : Nat) (data : List Byte) (s : State) : StoreMoves s (storeData i data s).1 := by
  have happend := storeMoves_appendOctets .transmitData i data s
  unfold storeData
  split
  · exact .refl
  · split
    · exact .refl
    · split
      · rename_i heq
        rwa [heq] at happend
      · rename_i heq
        rwa [heq] at happend

theorem storeMoves_setComplete (i : Nat) (s : State) : StoreMoves s (setComplete i s) :=
  storeMoves_modFrame ..

theorem storeMoves_closeFrame (i : Nat) (s : State) : StoreMoves s (closeFrame i s) := by
  have hcomplete := storeMoves_setComplete i s
  unfold closeFrame
  dsimp only
  split
  · exact hcomplete
  · split
    · split
      · exact hcomplete.trans (storeMoves_putFrame ‹_ = some _›)
      · exact hcomplete
    · exact hcomplete.trans (storeMoves_failFrame ..)

theorem storeMoves_storeAndClose (i : Nat) (data : List Byte) (last : Bool) (s : State) :
    StoreMoves s (storeAndClose i data last s) := by
  have hstored := storeMoves_storeData i data s
  unfold storeAndClose
  split
  · rename_i s1 heq
    rw [heq] at hstored
    split
    · exact hstored.trans (storeMoves_closeFrame ..)
    · exact hstored
  · rename_i s1 o heq
    rw [heq] at hstored
    refine hstored.trans (Relation.ReflTransGen.trans ?_ (storeMoves_failFrame ..))
    split
    · exact storeMoves_setComplete ..
    · exact .refl

theorem storeMoves_acceptFirst {g : Segment} {n : LineNo} {i : Nat} {s : State} (h : s.frame i = none) :
    StoreMoves s (acceptFirst g n i s) := by
  unfold acceptFirst
  have hcreated : StoreMoves s (s.putFrame i (FrameRecord.newTx n g)) := (StoreMove.create s h).moves
  have hmapped : StoreMoves s { s.putFrame i (FrameRecord.newTx n g) with tags := Table.put s.tags g.tag i } :=
    hcreated.trans (StoreMove.aside (htags := Table.wf_put _ _)).moves
  exact hmapped.trans ((storeMoves_modLine ..).trans (storeMoves_storeAndClose ..))

theorem storeMoves_laterSegment (g : Segment) (s : State) : StoreMoves s (laterSegment g s) := by
  unfold laterSegment
  split
  · exact storeMoves_countStray s
  · split
    · exact storeMoves_countStray s
    · rename_i i _ _ r _
      have hcomplete : StoreMoves s (if g.last then setComplete i s else s) := by
        split
        · exact storeMoves_setComplete ..
        · exact .refl
      have hfull : StoreMoves s (if g.data = [] then s else failFrame .length i s) := by
        split
        · exact .refl
        · exact storeMoves_failFrame ..
      cases r.state
      case filling => exact storeMoves_storeAndClose ..
      case ready => exact hfull
      case sending =>
        dsimp only
        split
        · exact hcomplete
        · split
          · exact hfull
          · exact storeMoves_storeAndClose ..
      case discarding =>
        dsimp only
        split
        · exact (storeMoves_setComplete ..).trans (storeMoves_enterDone ..)
        · exact .refl
      case done | assembling | queued | delivering | sent => exact .refl

theorem firstCheck_ok {g : Segment} {s : State} {n : LineNo} {i : Nat} (h : firstCheck g s = .ok (n, i)) :
    lineField g.line = some n ∧ (s.line n).state = .opened ∧ Table.get s.tags g.tag = none ∧
      (s.line n).frameCount < (s.line n).config.limit ∧ g.declared ≤ 1024 ∧ g.data.length ≤ 240 ∧
      claimRecord .tx s = some i := by
  unfold firstCheck at h
  split at h
  · cases h
  · rename_i m hm
    split_ifs at h with hstate htag hlimit hlength
    split at h
    · cases h
    · rename_i j hj
      simp only [Except.ok.injEq, Prod.mk.injEq] at h
      obtain ⟨rfl, rfl⟩ := h
      simp only [Config.maxFrame, Config.maxSegment] at hlength
      refine ⟨hm, by simpa using hstate, by simpa using htag, by omega, by omega, by omega, hj⟩

theorem storeMoves_runSegment (atTick : Bool) (payload : List Byte) (s : State) : StoreMoves s (runSegment atTick payload s) := by
  unfold runSegment
  split
  · exact (storeMoves_countStray s).trans (storeMoves_endExecution _)
  · split
    · split
      · rename_i hcheck
        exact (storeMoves_acceptFirst (frame_of_claimRecord (firstCheck_ok hcheck).2.2.2.2.2.2)).trans
          ((storeMoves_settleLine ..).trans (storeMoves_endExecution _))
      · split
        · rename_i hreject
          obtain ⟨k, _, rfl⟩ := Option.map_eq_some_iff.mp hreject
          exact (StoreMove.aside (hrejects := Table.wf_put _ _)).moves.trans (storeMoves_endExecution _)
        · exact storeMoves_stallHead s
    · exact (storeMoves_laterSegment ..).trans ((storeMoves_settleAt ..).trans (storeMoves_endExecution _))

end Sys2Proof.Machine

end

section
-- The proofs below are checked one after another: in parallel each waits for the others with a thread of its own.
set_option Elab.async false

/-! PROOFS. Every step is made of elementary changes of the store; so it keeps the laws of Chapter 1. -/

namespace Sys2Proof.Machine

/-! ## Commands -/

theorem storeMoves_openLineBody (tag : Byte) (ps : List Byte) (s : State) : StoreMoves s (openLineBody tag ps s) := by
  unfold openLineBody
  split
  · split
    · exact storeMoves_joinReply ..
    · split
      · exact storeMoves_joinReply ..
      · split
        · exact storeMoves_joinReply ..
        · exact (storeMoves_modLine ..).trans ((storeMoves_settleLine ..).trans (storeMoves_joinReply ..))
  · exact .refl

theorem storeMoves_setLineBody (tag : Byte) (ps : List Byte) (s : State) : StoreMoves s (setLineBody tag ps s) := by
  unfold setLineBody
  split
  · split
    · exact storeMoves_joinReply ..
    · split
      · exact storeMoves_joinReply ..
      · split
        · exact storeMoves_joinReply ..
        · exact (storeMoves_modLine ..).trans ((storeMoves_settleLine ..).trans (storeMoves_joinReply ..))
  · exact .refl

theorem storeMoves_queryLineBody (tag : Byte) (ps : List Byte) (s : State) : StoreMoves s (queryLineBody tag ps s) := by
  unfold queryLineBody
  split
  · split
    · exact storeMoves_joinReply ..
    · split
      · exact storeMoves_joinReply ..
      · split
        · exact (storeMoves_modLine ..).trans (storeMoves_joinReply ..)
        · exact storeMoves_joinReply ..
  · exact .refl

theorem storeMoves_discardQueued (n : LineNo) (s : State) (i : Nat) : StoreMoves s (discardQueued n s i) := by
  unfold discardQueued
  split
  · exact .refl
  · exact (storeMoves_freeFrame ..).trans (storeMoves_modLine ..)

theorem storeMoves_releaseDiscard (n : LineNo) (s : State) : StoreMoves s (releaseDiscard n s) := by
  unfold releaseDiscard
  exact (storeMoves_foldl _ (storeMoves_discardQueued n) _ s).trans (storeMoves_modLine _ n _)

theorem storeMoves_applyTxMode (n : LineNo) (t : TxMode) (limit : Nat) (s : State) : StoreMoves s (applyTxMode n t limit s) := by
  unfold applyTxMode
  split
  · exact storeMoves_flushHandling ..
  · split
    · exact .refl
    · exact storeMoves_modLine ..

theorem storeMoves_applyRxMode (n : LineNo) (r : RxMode) (s : State) : StoreMoves s (applyRxMode n r s) := by
  unfold applyRxMode
  split
  · exact .refl
  · exact storeMoves_releaseDiscard ..

theorem storeMoves_closeOpen (tag : Byte) (n : LineNo) (t : TxMode) (r : RxMode) (limit : Nat) (s : State) :
    StoreMoves s (closeOpen tag n t r limit s) :=
  (storeMoves_modLine ..).trans ((storeMoves_closeReceiver ..).trans ((storeMoves_endBreak ..).trans
    ((storeMoves_joinReply ..).trans ((storeMoves_applyTxMode ..).trans ((storeMoves_applyRxMode ..).trans
      (storeMoves_settleLine ..))))))

theorem storeMoves_escalate (tag : Byte) (n : LineNo) (t : TxMode) (r : RxMode) (s : State) :
    StoreMoves s (escalate tag n t r s) := by
  have hflush (b : Bool) (u : State) : StoreMoves u (if b then flushHandling n u else u) := by
    split
    · exact storeMoves_flushHandling ..
    · exact .refl
  have hdiscard (b : Bool) (u : State) : StoreMoves u (if b then releaseDiscard n u else u) := by
    split
    · exact storeMoves_releaseDiscard ..
    · exact .refl
  unfold escalate
  dsimp only
  split
  · exact (hflush _ s).trans ((hdiscard _ _).trans ((storeMoves_joinReply ..).trans (storeMoves_settleLine ..)))
  · exact storeMoves_joinReply ..

theorem storeMoves_closeLineBody (tag : Byte) (ps : List Byte) (s : State) : StoreMoves s (closeLineBody tag ps s) := by
  unfold closeLineBody
  split
  · split
    · exact storeMoves_joinReply ..
    · split
      · split
        · exact storeMoves_closeOpen ..
        · exact storeMoves_escalate ..
        · exact storeMoves_joinReply ..
      · exact storeMoves_joinReply ..
  · exact .refl

theorem storeMoves_ackConditionBody (tag : Byte) (ps : List Byte) (s : State) : StoreMoves s (ackConditionBody tag ps s) := by
  unfold ackConditionBody
  split
  · split
    · exact storeMoves_joinReply ..
    · split
      · exact (storeMoves_modLine ..).trans ((storeMoves_modLine ..).trans (storeMoves_joinReply ..))
      · exact storeMoves_joinReply ..
  · exact .refl

theorem storeMoves_sendBreakBody (tag : Byte) (ps : List Byte) (s : State) : StoreMoves s (sendBreakBody tag ps s) := by
  unfold sendBreakBody
  split
  · split
    · exact storeMoves_joinReply ..
    · dsimp only
      split
      · exact storeMoves_joinReply ..
      · split
        · exact storeMoves_joinReply ..
        · split
          · exact storeMoves_joinReply ..
          · exact (storeMoves_modLine ..).trans (storeMoves_settleLine ..)
  · exact .refl

theorem storeMoves_seekLineBody (tag : Byte) (ps : List Byte) (s : State) : StoreMoves s (seekLineBody tag ps s) := by
  unfold seekLineBody
  split
  · split
    · exact storeMoves_joinReply ..
    · split
      · exact storeMoves_joinReply ..
      · exact (storeMoves_seekReceiver ..).trans ((storeMoves_settleLine ..).trans (storeMoves_joinReply ..))
  · exact .refl

theorem storeMoves_cancelFrameBody (tag : Byte) (ps : List Byte) (s : State) : StoreMoves s (cancelFrameBody tag ps s) := by
  unfold cancelFrameBody
  split
  · split
    · exact storeMoves_joinReply ..
    · exact (storeMoves_failFrame ..).trans ((storeMoves_settleAt ..).trans (storeMoves_joinReply ..))
  · exact .refl

theorem storeMoves_moveChosen (src dst : LineNo) (p : Position) (chosen : List Candidate) (s : State) :
    StoreMoves s (moveChosen src dst p chosen s) := by
  unfold moveChosen
  exact (storeMoves_modLine ..).trans ((storeMoves_modLine ..).trans
    (storeMoves_foldl _ (fun t i => storeMoves_modFrame t i _) _ _))

theorem storeMoves_redirectBody (tag : Byte) (ps : List Byte) (s : State) : StoreMoves s (redirectBody tag ps s) := by
  unfold redirectBody
  split
  · split
    · split
      · split
        · exact storeMoves_joinReply ..
        · split
          · exact storeMoves_joinReply ..
          · split
            · exact storeMoves_joinReply ..
            · exact (storeMoves_moveChosen ..).trans ((storeMoves_settleLine ..).trans ((storeMoves_settleLine ..).trans
                (storeMoves_joinReply ..)))
      · exact storeMoves_joinReply ..
    · exact storeMoves_joinReply ..
  · exact .refl

theorem storeMoves_setDeviceBody (tag : Byte) (ps : List Byte) (s : State) : StoreMoves s (setDeviceBody tag ps s) := by
  unfold setDeviceBody
  split
  · split
    · exact storeMoves_of_eq rfl rfl rfl
    · exact storeMoves_joinReply ..
  · exact .refl

theorem storeMoves_queryDeviceBody (tag : Byte) (ps : List Byte) (s : State) : StoreMoves s (queryDeviceBody tag ps s) := by
  unfold queryDeviceBody
  split
  · split
    · exact storeMoves_joinReply ..
    · split
      · exact storeMoves_of_eq rfl rfl rfl
      · exact storeMoves_joinReply ..
  · exact .refl

theorem storeMoves_deviceReset (s : State) : StoreMoves s (deviceReset s) := by
  have hstore : (deviceReset s).store = .reset s.store.octets := by simp only [deviceReset]
  have htags : (deviceReset s).tags = [] := by simp only [deviceReset]
  have hrejects : (deviceReset s).rejects = [] := by simp only [deviceReset]
  exact (StoreMove.reset _ hstore id htags hrejects).moves

theorem storeMoves_commandBody (c : CommandCode) (tag : Byte) (ps : List Byte) (s : State) :
    StoreMoves s (commandBody c tag ps s) := by
  cases c
  case identify => exact storeMoves_joinReply ..
  case setDevice => exact storeMoves_setDeviceBody ..
  case queryDevice => exact storeMoves_queryDeviceBody ..
  case resetDevice => exact storeMoves_deviceReset s
  case openLine => exact storeMoves_openLineBody ..
  case closeLine => exact storeMoves_closeLineBody ..
  case queryLine => exact storeMoves_queryLineBody ..
  case ackCondition => exact storeMoves_ackConditionBody ..
  case sendBreak => exact storeMoves_sendBreakBody ..
  case seekLine => exact storeMoves_seekLineBody ..
  case cancelFrame => exact storeMoves_cancelFrameBody ..
  case redirect => exact storeMoves_redirectBody ..
  case setLine => exact storeMoves_setLineBody ..

theorem storeMoves_runKnown (c : CommandCode) (payload : List Byte) (s : State) :
    StoreMoves s (runKnown c (commandBody c) payload s) := by
  unfold runKnown
  split
  · refine Relation.ReflTransGen.trans ?_ (storeMoves_endExecution _)
    split
    · exact storeMoves_commandBody ..
    · exact storeMoves_joinReply ..
  · exact (storeMoves_joinReply ..).trans (storeMoves_endExecution _)

theorem storeMoves_runUnknown (payload : List Byte) (s : State) : StoreMoves s (runUnknown payload s) := by
  unfold runUnknown
  split
  · exact (storeMoves_joinReply ..).trans (storeMoves_endExecution _)
  · exact (storeMoves_joinReply ..).trans (storeMoves_endExecution _)

theorem storeMoves_runCommand (payload : List Byte) (s : State) : StoreMoves s (runCommand payload s) := by
  unfold runCommand
  split
  · exact storeMoves_runUnknown ..
  · exact storeMoves_runKnown ..

theorem storeMoves_takeCommand {run : List Byte → State → State} {payload : List Byte} {s : State}
    (h : StoreMoves s (run payload s)) : StoreMoves s (takeCommand run payload s) := by
  unfold takeCommand
  split
  · exact storeMoves_stallHead s
  · exact h

/-! ## The link -/

theorem storeMoves_markEntry (mark : Bool) (s : State) (e : EntryRef) : StoreMoves s (markEntry mark s e) := by
  cases e with
  | frame i => exact storeMoves_modFrame ..
  | reject k =>
    simp only [markEntry]
    split
    · exact .refl
    · exact (StoreMove.aside (hrejects := Table.wf_put _ _)).moves

/-- A record is formed by marks, flags, and the delivery cursor of a frame. -/
theorem storeMoves_formRecord {s t : State} {c : Content} (h : formRecord s = some (c, t)) : StoreMoves s t := by
  rcases formRecord_cases h with h | h | h | h | h
  · obtain ⟨q, _, h⟩ := Option.map_eq_some_iff.mp h
    cases h
    exact storeMoves_of_eq rfl rfl rfl
  · obtain ⟨n, _, h⟩ := Option.map_eq_some_iff.mp h
    cases h
    exact storeMoves_modLine ..
  · unfold formDone at h
    split at h
    · cases h
    · cases h
      exact storeMoves_foldl _ (storeMoves_markEntry true) _ s
  · obtain ⟨n, _, h⟩ := Option.map_eq_some_iff.mp h
    cases h
    exact storeMoves_modLine ..
  · unfold formSegment at h
    split at h
    · cases h
    · split at h
      · cases h
      · obtain ⟨r, hr, h⟩ := Option.map_eq_some_iff.mp h
        cases h
        exact (storeMoves_putFrame hr).trans (storeMoves_of_eq rfl rfl rfl)

theorem storeMoves_sendAckIfDue (s : State) : StoreMoves s (sendAckIfDue s) := by
  unfold sendAckIfDue
  split
  · exact storeMoves_modLink ..
  · exact .refl

theorem storeMoves_sendNew (atTick : Bool) (c : Content) (s : State) : StoreMoves s (sendNew atTick c s) := by
  unfold sendNew
  exact (storeMoves_modLink s _).trans (storeMoves_modLink _ _)

theorem storeMoves_serve (atTick : Bool) (s : State) : StoreMoves s (serve atTick s) := by
  unfold serve
  split
  · exact .refl
  · split
    · exact (storeMoves_modLink ..).trans (storeMoves_modLink ..)
    · exact (storeMoves_modLink ..).trans (storeMoves_modLink ..)
    · split
      · exact .refl
      · unfold chooseUp
        split
        · exact (storeMoves_modLink ..).trans (storeMoves_modLink ..)
        · split
          · unfold sendNewOrAck
            split
            · split
              · exact (storeMoves_formRecord ‹_›).trans (storeMoves_sendNew ..)
              · exact storeMoves_sendAckIfDue s
            · exact storeMoves_sendAckIfDue s
          · split
            · exact (storeMoves_modLink ..).trans (storeMoves_modLink ..)
            · exact storeMoves_sendAckIfDue s

theorem storeMoves_releaseEntry (s : State) (e : EntryRef) : StoreMoves s (releaseEntry s e) := by
  have hleft : StoreMoves s { s with completion := s.completion.filter (· ≠ e) } := storeMoves_of_eq rfl rfl rfl
  unfold releaseEntry
  cases e with
  | frame i => exact hleft.trans (storeMoves_freeFrame ..)
  | reject k => exact hleft.trans (StoreMove.aside (hrejects := Table.wf_del _)).moves

theorem storeMoves_releaseReceived (i : Nat) (s : State) : StoreMoves s (releaseReceived i s) := by
  unfold releaseReceived
  split
  · exact .refl
  · exact (storeMoves_freeFrame ..).trans (storeMoves_modLine ..)

theorem storeMoves_releaseRecord (s : State) (k : Retained) : StoreMoves s (releaseRecord s k) := by
  unfold releaseRecord
  split
  · exact storeMoves_of_eq rfl rfl rfl
  · exact .refl
  · exact storeMoves_foldl _ storeMoves_releaseEntry ..
  · exact .refl
  · split
    · exact storeMoves_releaseReceived ..
    · exact .refl

theorem storeMoves_rejudgeCommand (s : State) : StoreMoves s (rejudgeCommand s) := by
  unfold rejudgeCommand
  split
  · exact (storeMoves_modLink ..).trans (storeMoves_takeCommand (storeMoves_runCommand ..))
  · exact .refl

theorem storeMoves_rejudgeSegment (atTick : Bool) (s : State) : StoreMoves s (rejudgeSegment atTick s) := by
  unfold rejudgeSegment
  split
  · exact (storeMoves_modLink ..).trans (storeMoves_runSegment ..)
  · exact .refl

theorem storeMoves_afterReleases (acked : List Retained) (lines : List LineNo) (s : State) :
    StoreMoves s (afterReleases acked lines s) := by
  have hcommand (b : Bool) (u : State) : StoreMoves u (if b then rejudgeCommand u else u) := by
    split
    · exact storeMoves_rejudgeCommand u
    · exact .refl
  have hsegment (b : Bool) (u : State) : StoreMoves u (if b then rejudgeSegment false u else u) := by
    split
    · exact storeMoves_rejudgeSegment ..
    · exact .refl
  unfold afterReleases
  exact (hcommand _ s).trans ((hsegment _ _).trans (storeMoves_foldl _ (fun t n => storeMoves_settleLine false n t) ..))

theorem storeMoves_takeAck (a : Seq) (room : Byte) (s : State) : StoreMoves s (takeAck a room s) :=
  (storeMoves_modLink ..).trans ((storeMoves_foldl _ storeMoves_releaseRecord ..).trans (storeMoves_afterReleases ..))

theorem storeMoves_takeAckFields (r : HostRecord) (s : State) : StoreMoves s (takeAckFields r s) := by
  unfold takeAckFields
  split
  · exact storeMoves_modLink ..
  · exact storeMoves_takeAck ..

theorem storeMoves_takeNak (r : HostRecord) (s : State) : StoreMoves s (takeNak r s) := by
  unfold takeNak
  split
  · exact storeMoves_modLink ..
  · exact (storeMoves_takeAck ..).trans (storeMoves_modLink ..)

theorem storeMoves_rewindRecord (s : State) (k : Retained) : StoreMoves s (rewindRecord s k) := by
  unfold rewindRecord
  split
  · exact storeMoves_of_eq rfl rfl rfl
  · exact storeMoves_modLine ..
  · exact storeMoves_foldl _ (storeMoves_markEntry false) ..
  · exact storeMoves_modLine ..
  · exact .refl

/-- A rewind leaves the octets of a frame as they are (R145). -/
theorem FrameRecord.rewind_chain (r : FrameRecord) : r.rewind.chain = r.chain ∧ r.rewind.stored = r.stored := by
  unfold FrameRecord.rewind
  split
  · exact ⟨rfl, rfl⟩
  · exact ⟨rfl, rfl⟩
  · exact ⟨rfl, rfl⟩

theorem storeMoves_takeHello (r : HostRecord) (s : State) : StoreMoves s (takeHello r s) := by
  unfold takeHello
  split
  · exact (storeMoves_foldl _ storeMoves_rewindRecord ..).trans
      ((StoreMove.editAll _ FrameRecord.rewind FrameRecord.rewind_chain).moves.trans (storeMoves_modLink ..))
  · exact (storeMoves_modLink ..).trans (storeMoves_modLink ..)

theorem storeMoves_byLinkState {take : State → State} (h : ∀ u, StoreMoves u (take u)) (s : State) :
    StoreMoves s (byLinkState take s) := by
  unfold byLinkState
  split
  · exact storeMoves_modLink ..
  · exact (storeMoves_modLink ..).trans (h _)

theorem storeMoves_resumeSearch (rest : List Byte) (s : State) : StoreMoves s (resumeSearch rest s) := by
  unfold resumeSearch
  split
  · exact .refl
  · exact storeMoves_modLink ..

theorem storeMoves_takeChecked (t : HostType) (r : HostRecord) {take : State → State} (h : ∀ u, StoreMoves u (take u))
    (s : State) : StoreMoves s (takeChecked t r take s) := by
  unfold takeChecked
  split
  · exact .refl
  · split
    · exact .refl
    · exact (storeMoves_modLink ..).trans ((h _).trans ((storeMoves_serve ..).trans (storeMoves_resumeSearch ..)))

/-! ## Events -/

theorem storeMoves_commandEvent (own : Option CommandCode) {run : List Byte → State → State}
    (h : ∀ p u, StoreMoves u (run p u)) (s : State) : StoreMoves s (commandEvent own run s) := by
  unfold commandEvent
  split
  · exact .refl
  · split
    · exact (storeMoves_takeCommand (h ..)).trans (storeMoves_serve ..)
    · exact .refl

theorem storeMoves_knownEvent (c : CommandCode) (s : State) : StoreMoves s (knownEvent c (commandBody c) s) :=
  storeMoves_commandEvent _ (storeMoves_runKnown c) s

theorem storeMoves_lineEvent (atTick : Bool) (n : LineNo) (due : Line → Bool) {effect : State → State}
    (h : ∀ u, StoreMoves u (effect u)) (s : State) : StoreMoves s (lineEvent atTick n due effect s) := by
  unfold lineEvent
  split
  · exact (h s).trans ((storeMoves_settleLine ..).trans (storeMoves_serve ..))
  · exact .refl

theorem storeMoves_onCurrent (n : LineNo) {effect : Nat → State → State} (h : ∀ i u, StoreMoves u (effect i u)) (s : State) :
    StoreMoves s (onCurrent n effect s) := by
  unfold onCurrent
  split
  · exact .refl
  · exact h ..

/-- A tick leaves the octets of a frame as they are (R12). -/
theorem FrameRecord.tick_chain (r : FrameRecord) : r.tick.chain = r.chain ∧ r.tick.stored = r.stored := by
  unfold FrameRecord.tick
  split
  · exact ⟨rfl, rfl⟩
  · exact ⟨rfl, rfl⟩
  · exact ⟨rfl, rfl⟩

theorem storeMoves_countTick (s : State) : StoreMoves s (countTick s) :=
  (StoreMove.editAll s FrameRecord.tick FrameRecord.tick_chain).moves.trans (storeMoves_of_eq rfl rfl rfl)

theorem storeMoves_startCharacter (n : LineNo) (s : State) : StoreMoves s (startCharacter n s) := by
  unfold startCharacter
  refine Relation.ReflTransGen.trans ?_ (storeMoves_modLine ..)
  split
  · exact storeMoves_beginFrame ..
  · exact .refl

theorem storeMoves_completeCharacter (n : LineNo) (data : OctetBits) (parityBit stopBit : Bool) (s : State) :
    StoreMoves s (completeCharacter n data parityBit stopBit s) := by
  unfold completeCharacter
  refine Relation.ReflTransGen.trans ?_ (storeMoves_modLine ..)
  split
  · exact storeMoves_assembleCharacter ..
  · exact .refl

theorem storeMoves_takeGap (n : LineNo) (s : State) : StoreMoves s (takeGap n s) := by
  unfold takeGap
  split
  · exact storeMoves_endGapFrame ..
  · exact storeMoves_modLine ..

theorem storeMoves_returnToMarking (n : LineNo) (s : State) : StoreMoves s (returnToMarking n s) := by
  unfold returnToMarking
  split
  · exact storeMoves_modLine ..
  · exact storeMoves_modLine ..

theorem storeMoves_takeSyncOctet (n : LineNo) (b : Byte) (s : State) : StoreMoves s (takeSyncOctet n b s) := by
  unfold takeSyncOctet
  split
  · exact storeMoves_assembleSyncOctet ..
  · exact storeMoves_modLine ..

theorem storeMoves_carrierEffect (n : LineNo) (high : Bool) (s : State) : StoreMoves s (carrierEffect n high s) := by
  unfold carrierEffect
  split
  · split
    · exact storeMoves_modLine ..
    · exact storeMoves_gateReceiver ..
  · exact .refl

theorem storeMoves_powerOn (rate : HostRate) (lines : Vector Line 8) (pending : List Instr) (s : State) :
    StoreMoves s (State.powerOn rate lines pending) := by
  have hstore : (State.powerOn rate lines pending).store = .reset [] := by simp only [State.powerOn]
  have htags : (State.powerOn rate lines pending).tags = [] := by simp only [State.powerOn]
  have hrejects : (State.powerOn rate lines pending).rejects = [] := by simp only [State.powerOn]
  exact (StoreMove.reset _ hstore (fun _ => ⟨List.Pairwise.nil, by simp⟩) htags hrejects).moves

/-- Every command is made of elementary changes of the store. -/
theorem storeMoves_exec {c : Instr} {s t : State} (h : exec c s = .next t) : StoreMoves s t := by
  cases c <;> obtain rfl := Host.Outcome.next.inj h
  case powerOnReset h1 h0 => exact storeMoves_powerOn ..
  case tick =>
    split
    · exact .refl
    · exact (storeMoves_countTick s).trans ((storeMoves_rejudgeSegment ..).trans (storeMoves_serve ..))
  case receiveRecordError octets bad =>
    split
    · exact .refl
    · split
      · exact .refl
      · exact (storeMoves_modLink ..).trans (storeMoves_serve ..)
  case hello r => exact storeMoves_takeChecked _ _ (storeMoves_takeHello r) s
  case hostAck r => exact storeMoves_takeChecked _ _ (storeMoves_byLinkState (storeMoves_takeAckFields r)) s
  case hostNak r => exact storeMoves_takeChecked _ _ (storeMoves_byLinkState (storeMoves_takeNak r)) s
  case hostSequencedRecord kind r =>
    exact storeMoves_takeChecked _ _
      (storeMoves_byLinkState fun u => (storeMoves_takeAckFields r u).trans (storeMoves_modLink ..)) s
  case txSegment =>
    split
    · exact .refl
    · split
      · exact (storeMoves_runSegment ..).trans (storeMoves_serve ..)
      · exact .refl
  case unknownCommand => exact storeMoves_commandEvent _ storeMoves_runUnknown s
  case identify => exact storeMoves_knownEvent .identify s
  case setDevice => exact storeMoves_knownEvent .setDevice s
  case queryDevice => exact storeMoves_knownEvent .queryDevice s
  case resetDevice => exact storeMoves_knownEvent .resetDevice s
  case openLine => exact storeMoves_knownEvent .openLine s
  case closeLine => exact storeMoves_knownEvent .closeLine s
  case queryLine => exact storeMoves_knownEvent .queryLine s
  case ackCondition => exact storeMoves_knownEvent .ackCondition s
  case sendBreak => exact storeMoves_knownEvent .sendBreak s
  case seekLine => exact storeMoves_knownEvent .seekLine s
  case cancelFrame => exact storeMoves_knownEvent .cancelFrame s
  case redirect => exact storeMoves_knownEvent .redirect s
  case setLine => exact storeMoves_knownEvent .setLine s
  case leadinEnd n => exact storeMoves_lineEvent _ _ _ (storeMoves_onCurrent n (storeMoves_endLeadin n)) s
  case dataOctetBoundary n => exact storeMoves_lineEvent _ _ _ (storeMoves_onCurrent n (storeMoves_octetBoundary n)) s
  case frameEnd n => exact storeMoves_lineEvent _ _ _ (storeMoves_onCurrent n (storeMoves_endFrame n)) s
  case gapEnd n => exact storeMoves_lineEvent _ _ _ (fun u => storeMoves_modLine u n _) s
  case breakTimerExpiry n => exact storeMoves_lineEvent _ _ _ (storeMoves_endBreak n _) s
  case turnaroundTimerExpiry n => exact storeMoves_lineEvent _ _ _ (fun u => storeMoves_modLine u n _) s
  case expiry n =>
    exact storeMoves_lineEvent _ _ _ (fun u => (storeMoves_modLine u n _).trans (storeMoves_expireLine ..)) s
  case drainTimerExpiry n => exact storeMoves_lineEvent _ _ _ (storeMoves_flushHandling n) s
  case clearChange n high =>
    dsimp only
    split
    · exact storeMoves_modLine ..
    · split
      · exact .refl
      · exact (storeMoves_modLine ..).trans ((storeMoves_settleLine ..).trans (storeMoves_serve ..))
  case carrierChange n high =>
    dsimp only
    split
    · exact storeMoves_modLine ..
    · split
      · exact .refl
      · exact (storeMoves_modLine ..).trans ((storeMoves_carrierEffect ..).trans ((storeMoves_settleLine ..).trans
          (storeMoves_serve ..)))
  case characterStart n => exact storeMoves_lineEvent _ _ _ (storeMoves_startCharacter n) s
  case characterComplete n data parityBit stopBit =>
    exact storeMoves_lineEvent _ _ _ (storeMoves_completeCharacter n data parityBit stopBit) s
  case receiveGap n => exact storeMoves_lineEvent _ _ _ (storeMoves_takeGap n) s
  case breakDetected n => exact storeMoves_lineEvent _ _ _ (storeMoves_detectBreak n) s
  case lineReturnsToMarking n => exact storeMoves_lineEvent _ _ _ (storeMoves_returnToMarking n) s
  case patternMatch seen => exact storeMoves_lineEvent _ _ _ (fun u => storeMoves_modLine u _ _) s
  case pair n high low => exact storeMoves_lineEvent _ _ _ (storeMoves_takePair n _ _) s
  case syncOctet n bits => exact storeMoves_lineEvent _ _ _ (storeMoves_takeSyncOctet n _) s
  case retransmissionTimerExpiry =>
    split
    · exact (storeMoves_modLink ..).trans (storeMoves_serve ..)
    · exact .refl
  case silenceTimerExpiry =>
    split
    · exact (storeMoves_modLink ..).trans (storeMoves_serve ..)
    · exact .refl
  case sendingEnd =>
    split
    · exact (storeMoves_modLink ..).trans (storeMoves_serve ..)
    · exact .refl
  case rstAsserted => exact storeMoves_of_eq rfl rfl rfl

/-! ## Steps -/

/-- A law that every command keeps and that says nothing of the command queue is kept by every step. -/
theorem step_keeps {P : State → Prop} (hqueue : ∀ (s : State) (rest : List Instr), P s → P { s with pending := rest })
    (hexec : ∀ (c : Instr) (s t : State), P s → exec c s = .next t → P t) {s t : State} (hs : P s) (h : step s = .next t) :
    P t := by
  unfold step at h
  split at h
  · obtain rfl := Host.Outcome.next.inj h
    exact hs
  · exact hexec _ _ _ (hqueue _ _ hs) h

theorem storeMoves_step {s t : State} (h : step s = .next t) : StoreMoves s t :=
  step_keeps (P := StoreMoves s) (fun _ _ hu => hu.trans (storeMoves_of_eq rfl rfl rfl))
    (fun _ _ _ hu hexec => hu.trans (storeMoves_exec hexec)) .refl h

/-- Settles O9: each elementary change of the store leaves every cell in one place. -/
theorem cellsNeverLostOrShared : Obligations.CellsNeverLostOrShared :=
  fun _ _ hs h => (storeMoves_step h).keeps (fun _ _ => StoreMove.cellsKept) hs

/-- Settles O10: each elementary change of the store keeps the chains, and each keeps the tables. -/
theorem chainsAndTablesKept : Obligations.ChainsAndTablesKept :=
  ⟨fun _ _ hs h => (storeMoves_step h).keeps (fun _ _ => StoreMove.chainsKept) hs,
    fun _ _ hs h => (storeMoves_step h).keeps (fun _ _ => StoreMove.tablesKept) hs⟩

end Sys2Proof.Machine

end

section
-- The proofs below are checked one after another: in parallel each waits for the others with a thread of its own.
set_option Elab.async false

/-! PROOFS. The command queue, RST#, and the two resets (9.4 to 9.6, Tables 8.3 and 9.4). -/

namespace Sys2Proof.Machine

/-! ## The command queue and RST# -/

/-- Settles O1. -/
theorem stepTakesFrontCommand : Obligations.StepTakesFrontCommand :=
  ⟨fun c rest s h => by simp only [step, h], fun s h => by simp only [step, h]⟩

theorem QueueKept.refl (s : State) : QueueKept s s := ⟨rfl, rfl⟩

theorem queueKept_modLine (s : State) (n : LineNo) (f : Line → Line) : QueueKept s (s.modLine n f) := ⟨rfl, rfl⟩

theorem queueKept_modLink (s : State) (f : HostLink → HostLink) : QueueKept s (s.modLink f) := ⟨rfl, rfl⟩

theorem queueKept_serve (atTick : Bool) (s : State) : QueueKept s (serve atTick s) := (upstreamSide_serve atTick s).queueKept

theorem queueKept_takeAckFields (r : HostRecord) (s : State) : QueueKept s (takeAckFields r s) := by
  unfold takeAckFields
  split
  · exact queueKept_modLink ..
  · exact queueKept_takeAck ..

theorem queueKept_takeNak (r : HostRecord) (s : State) : QueueKept s (takeNak r s) := by
  unfold takeNak
  split
  · exact queueKept_modLink ..
  · exact (queueKept_takeAck ..).trans (queueKept_modLink ..)

theorem queueKept_takeHello (r : HostRecord) (s : State) : QueueKept s (takeHello r s) := by
  unfold takeHello
  split
  · exact queueKept_linkReset ..
  · exact (queueKept_modLink ..).trans (queueKept_modLink ..)

theorem queueKept_byLinkState {take : State → State} (h : ∀ u, QueueKept u (take u)) (s : State) :
    QueueKept s (byLinkState take s) := by
  unfold byLinkState
  split
  · exact queueKept_modLink ..
  · exact (queueKept_modLink ..).trans (h _)

theorem queueKept_resumeSearch (rest : List Byte) (s : State) : QueueKept s (resumeSearch rest s) := by
  unfold resumeSearch
  split
  · exact .refl s
  · exact queueKept_modLink ..

theorem queueKept_takeChecked (t : HostType) (r : HostRecord) {take : State → State} (h : ∀ u, QueueKept u (take u))
    (s : State) : QueueKept s (takeChecked t r take s) := by
  unfold takeChecked
  split
  · exact .refl s
  · split
    · exact .refl s
    · exact (queueKept_modLink ..).trans ((h _).trans ((queueKept_serve ..).trans (queueKept_resumeSearch ..)))

theorem queueKept_commandEvent (own : Option CommandCode) {run : List Byte → State → State}
    (h : ∀ p u, QueueKept u (run p u)) (s : State) : QueueKept s (commandEvent own run s) := by
  unfold commandEvent
  split
  · exact .refl s
  · split
    · exact (queueKept_takeCommand run h _ s).trans (queueKept_serve ..)
    · exact .refl s

theorem queueKept_knownEvent (c : CommandCode) (s : State) : QueueKept s (knownEvent c (commandBody c) s) :=
  queueKept_commandEvent _ (queueKept_runKnown c _ (queueKept_commandBody c)) s

theorem queueKept_lineEvent (atTick : Bool) (n : LineNo) (due : Line → Bool) {effect : State → State}
    (h : ∀ u, LineSide u (effect u)) (s : State) : QueueKept s (lineEvent atTick n due effect s) := by
  unfold lineEvent
  split
  · exact (h s).queueKept.trans ((lineSide_settleLine ..).queueKept.trans (queueKept_serve ..))
  · exact .refl s

theorem lineSide_onCurrent (n : LineNo) {effect : Nat → State → State} (h : ∀ i u, LineSide u (effect i u)) (s : State) :
    LineSide s (onCurrent n effect s) := by
  unfold onCurrent
  split
  · exact .refl s
  · exact h ..

theorem lineSide_startCharacter (n : LineNo) (s : State) : LineSide s (startCharacter n s) := by
  unfold startCharacter
  split
  · exact (lineSide_beginFrame ..).trans (lineSide_modLine ..)
  · exact lineSide_modLine ..

theorem lineSide_completeCharacter (n : LineNo) (data : OctetBits) (parityBit stopBit : Bool) (s : State) :
    LineSide s (completeCharacter n data parityBit stopBit s) := by
  unfold completeCharacter
  split
  · exact (lineSide_assembleCharacter ..).trans (lineSide_modLine ..)
  · exact lineSide_modLine ..

theorem lineSide_takeGap (n : LineNo) (s : State) : LineSide s (takeGap n s) := by
  unfold takeGap
  split
  · exact lineSide_endGapFrame ..
  · exact lineSide_modLine ..

theorem lineSide_returnToMarking (n : LineNo) (s : State) : LineSide s (returnToMarking n s) := by
  unfold returnToMarking
  split
  · exact lineSide_modLine ..
  · exact lineSide_modLine ..

theorem lineSide_takeSyncOctet (n : LineNo) (b : Byte) (s : State) : LineSide s (takeSyncOctet n b s) := by
  unfold takeSyncOctet
  split
  · exact lineSide_assembleSyncOctet ..
  · exact lineSide_modLine ..

theorem lineSide_carrierEffect (n : LineNo) (high : Bool) (s : State) : LineSide s (carrierEffect n high s) := by
  unfold carrierEffect
  split
  · split
    · exact lineSide_modLine ..
    · exact lineSide_gateReceiver ..
  · exact .refl s

/-- A command other than the two reset rows: it answers a state with the queue and RST# as they were. -/
theorem queueKept_exec {c : Instr} (s : State) (hreset : c ≠ .rstAsserted ∧ ∀ h1 h0, c ≠ .powerOnReset h1 h0) :
    ∃ t, exec c s = .next t ∧ QueueKept s t := by
  cases c <;> refine ⟨_, rfl, ?_⟩
  case powerOnReset h1 h0 => exact absurd rfl (hreset.2 h1 h0)
  case rstAsserted => exact absurd rfl hreset.1
  case tick =>
    split
    · exact .refl s
    · exact QueueKept.trans (s := s) (t := countTick s) ⟨rfl, rfl⟩ ((queueKept_rejudgeSegment ..).trans (queueKept_serve ..))
  case receiveRecordError octets bad =>
    split
    · exact .refl s
    · split
      · exact .refl s
      · exact (queueKept_modLink ..).trans (queueKept_serve ..)
  case hello r => exact queueKept_takeChecked _ _ (queueKept_takeHello r) s
  case hostAck r => exact queueKept_takeChecked _ _ (queueKept_byLinkState (queueKept_takeAckFields r)) s
  case hostNak r => exact queueKept_takeChecked _ _ (queueKept_byLinkState (queueKept_takeNak r)) s
  case hostSequencedRecord kind r =>
    exact queueKept_takeChecked _ _
      (queueKept_byLinkState fun u => (queueKept_takeAckFields r u).trans (queueKept_modLink ..)) s
  case txSegment =>
    split
    · exact .refl s
    · split
      · exact (queueKept_runSegment ..).trans (queueKept_serve ..)
      · exact .refl s
  case unknownCommand => exact queueKept_commandEvent _ queueKept_runUnknown s
  case identify => exact queueKept_knownEvent .identify s
  case setDevice => exact queueKept_knownEvent .setDevice s
  case queryDevice => exact queueKept_knownEvent .queryDevice s
  case resetDevice => exact queueKept_knownEvent .resetDevice s
  case openLine => exact queueKept_knownEvent .openLine s
  case closeLine => exact queueKept_knownEvent .closeLine s
  case queryLine => exact queueKept_knownEvent .queryLine s
  case ackCondition => exact queueKept_knownEvent .ackCondition s
  case sendBreak => exact queueKept_knownEvent .sendBreak s
  case seekLine => exact queueKept_knownEvent .seekLine s
  case cancelFrame => exact queueKept_knownEvent .cancelFrame s
  case redirect => exact queueKept_knownEvent .redirect s
  case setLine => exact queueKept_knownEvent .setLine s
  case leadinEnd n => exact queueKept_lineEvent _ _ _ (lineSide_onCurrent n (lineSide_endLeadin n)) s
  case dataOctetBoundary n => exact queueKept_lineEvent _ _ _ (lineSide_onCurrent n (lineSide_octetBoundary n)) s
  case frameEnd n => exact queueKept_lineEvent _ _ _ (lineSide_onCurrent n (lineSide_endFrame n)) s
  case gapEnd n => exact queueKept_lineEvent _ _ _ (fun u => lineSide_modLine u n _) s
  case breakTimerExpiry n => exact queueKept_lineEvent _ _ _ (lineSide_endBreak n _) s
  case turnaroundTimerExpiry n => exact queueKept_lineEvent _ _ _ (fun u => lineSide_modLine u n _) s
  case expiry n =>
    exact queueKept_lineEvent _ _ _ (fun u => (lineSide_modLine u n _).trans (lineSide_expireLine ..)) s
  case drainTimerExpiry n => exact queueKept_lineEvent _ _ _ (lineSide_flushHandling n) s
  case clearChange n high =>
    dsimp only
    split
    · exact queueKept_modLine ..
    · split
      · exact .refl s
      · exact (queueKept_modLine ..).trans ((lineSide_settleLine ..).queueKept.trans (queueKept_serve ..))
  case carrierChange n high =>
    dsimp only
    split
    · exact queueKept_modLine ..
    · split
      · exact .refl s
      · exact (queueKept_modLine ..).trans ((lineSide_carrierEffect ..).queueKept.trans
          ((lineSide_settleLine ..).queueKept.trans (queueKept_serve ..)))
  case characterStart n => exact queueKept_lineEvent _ _ _ (lineSide_startCharacter n) s
  case characterComplete n data parityBit stopBit =>
    exact queueKept_lineEvent _ _ _ (lineSide_completeCharacter n data parityBit stopBit) s
  case receiveGap n => exact queueKept_lineEvent _ _ _ (lineSide_takeGap n) s
  case breakDetected n => exact queueKept_lineEvent _ _ _ (lineSide_detectBreak n) s
  case lineReturnsToMarking n => exact queueKept_lineEvent _ _ _ (lineSide_returnToMarking n) s
  case patternMatch seen => exact queueKept_lineEvent _ _ _ (fun u => lineSide_modLine u _ _) s
  case pair n high low => exact queueKept_lineEvent _ _ _ (lineSide_takePair n _ _) s
  case syncOctet n bits => exact queueKept_lineEvent _ _ _ (lineSide_takeSyncOctet n _) s
  case retransmissionTimerExpiry =>
    split
    · exact (queueKept_modLink ..).trans (queueKept_serve ..)
    · exact .refl s
  case silenceTimerExpiry =>
    split
    · exact (queueKept_modLink ..).trans (queueKept_serve ..)
    · exact .refl s
  case sendingEnd =>
    split
    · exact (queueKept_modLink ..).trans (queueKept_serve ..)
    · exact .refl s

/-- Settles O2: the two reset rows keep the queue, every other row the queue and RST#. -/
theorem everyCommandAnswersNext : Obligations.EveryCommandAnswersNext := by
  intro c s
  by_cases hassert : c = .rstAsserted
  · subst hassert
    exact ⟨_, rfl, rfl, .inr (.inl rfl)⟩
  by_cases hpower : ∃ h1 h0, c = .powerOnReset h1 h0
  · obtain ⟨h1, h0, rfl⟩ := hpower
    exact ⟨_, rfl, rfl, .inr (.inr ⟨h1, h0, rfl⟩)⟩
  obtain ⟨t, hexec, hpending, hlow⟩ := queueKept_exec (c := c) s ⟨hassert, fun h1 h0 h => hpower ⟨h1, h0, h⟩⟩
  exact ⟨t, hexec, hpending, .inl hlow⟩

/-! ## The resets -/

/-- Settles O3. -/
theorem powerOnResetEffect : Obligations.PowerOnResetEffect := by
  refine ⟨fun h1 h0 s => ?exec, fun carrier clear => ?line, ?values⟩
  case exec =>
    cases h1 <;> cases h0 <;>
      simp only [exec, execPowerOnReset, strapRate, State.powerOn, State.reset, HostLink.powerOn] <;> rfl
  case line => simp only [Line.reset, Transmitter.reset, Receiver.reset, ConditionGroup.reset, Conditions.cleared,
    CloseState.reset, LineCounters.zero, LineConfig.reset, and_self]
  case values => simp only [State.reset, State.powerOn, Store.reset, HostLink.powerOn, PartRecord.firstResync, and_self,
    Config.cells]

/-- A RESET_DEVICE without parameters is executed whatever the occupied count (R174, R180). -/
theorem knownEvent_plainReset {s : State} {tag : Byte} {later : List InboundRecord} (hrunning : s.rstLow = false)
    (hfresh : s.link.headStalled = false)
    (hinbound : s.link.inbound = { kind := .command, payload := [CommandCode.resetDevice.octet, tag] } :: later) :
    knownEvent .resetDevice resetDeviceBody s = serve false (endExecution (deviceReset s)) := by
  have hatHead : s.commandAtHead = some [CommandCode.resetDevice.octet, tag] := by
    simp [State.commandAtHead, hrunning, hfresh, hinbound]
  have hplain : isPlainReset [CommandCode.resetDevice.octet, tag] = true := rfl
  have hstalls : commandStalls [CommandCode.resetDevice.octet, tag] s = false := by simp [commandStalls, hplain]
  have hlength : ([] : List Byte).length = CommandCode.resetDevice.paramLength := rfl
  simp only [knownEvent, commandEvent, hatHead, commandOf_octet_cons, if_true, takeCommand, hstalls, Bool.false_eq_true,
    if_false, runKnown, if_pos hlength, resetDeviceBody]

/-- Settles O4: a RESET_DEVICE without parameters never stalls, and its body is the device reset. -/
theorem deviceResetEffect : Obligations.DeviceResetEffect := by
  intro s tag hrunning hfresh hhead
  obtain ⟨later, hinbound⟩ := List.head?_eq_some_iff.mp hhead
  refine congrArg Host.Outcome.next ((knownEvent_plainReset hrunning hfresh hinbound).trans (congrArg (serve false) ?_))
  simp only [endExecution, State.modLink, deviceReset, HostLink.deviceReset, State.reset, State.powerOn, Store.reset,
    Config.cells, List.tail_nil, hrunning]

/-! ## RST# low -/

theorem takeChecked_of_rstLow {s : State} (h : s.rstLow = true) (t : HostType) (r : HostRecord) (take : State → State) :
    takeChecked t r take s = s := by
  rw [takeChecked, if_pos h]

theorem commandEvent_of_rstLow {s : State} (h : s.rstLow = true) (own : Option CommandCode)
    (run : List Byte → State → State) : commandEvent own run s = s := by
  have hnone : s.commandAtHead = none := by simp [State.commandAtHead, h]
  simp only [commandEvent, hnone]

theorem lineEvent_of_rstLow {s : State} (h : s.rstLow = true) (atTick : Bool) (n : LineNo) (due : Line → Bool)
    (effect : State → State) : lineEvent atTick n due effect s = s := by
  simp [lineEvent, h]

/-- Settles O5: every event asks first whether RST# is low. -/
theorem rstLowTakesNoEvent : Obligations.RstLowTakesNoEvent := by
  refine ⟨fun s => rfl, fun c s hlow => ?_, fun s n hlow => ?_⟩
  · have hchecked := takeChecked_of_rstLow hlow
    have hcommand := commandEvent_of_rstLow hlow
    have hline := lineEvent_of_rstLow hlow
    cases c
    case powerOnReset => trivial
    case rstAsserted => trivial
    case hello | hostAck | hostNak | hostSequencedRecord => exact congrArg _ (hchecked ..)
    case unknownCommand | identify | setDevice | queryDevice | resetDevice | openLine | closeLine | queryLine |
        ackCondition | sendBreak | seekLine | cancelFrame | redirect | setLine => exact congrArg _ (hcommand ..)
    case leadinEnd | dataOctetBoundary | frameEnd | gapEnd | breakTimerExpiry | turnaroundTimerExpiry | expiry |
        drainTimerExpiry | characterStart | characterComplete | receiveGap | breakDetected | lineReturnsToMarking |
        patternMatch | pair | syncOctet => exact congrArg _ (hline ..)
    all_goals
      simp [exec, execTick, execReceiveRecordError, execTxSegment, execClearChange, execCarrierChange,
        execRetransmissionTimerExpiry, execSilenceTimerExpiry, execSendingEnd, hlow]
  · simp [State.htxd, State.ltxd, State.lreq, State.ldrv, State.lclkDriven, hlow]

/-! ## A tick -/

theorem tickTimer_eq (t : Option Nat) : tickTimer t = t.map (· - 1) := by cases t <;> rfl

/-- Settles O6: a tick counts, judges a stalled first segment again, and serves the serializer. -/
theorem tickEffect : Obligations.TickEffect := by
  refine ⟨fun k => ⟨fun h => if_pos h, fun h => if_neg (Nat.not_lt.mpr h)⟩, fun s hrunning => ?_⟩
  refine ⟨countTick s, ?exec, fun hfresh => ?fresh, fun i => ?frame, fun n => ?line, ?link, rfl, rfl, rfl, rfl, rfl, rfl, rfl,
    rfl, rfl, rfl, rfl, hrunning, rfl⟩
  case exec => simp [exec, execTick, hrunning]
  case fresh =>
    have hhead : (countTick s).link.stalledHead = none := by
      simp [HostLink.stalledHead, countTick, HostLink.tick, hfresh]
    simp only [rejudgeSegment, hhead]
  case frame =>
    have htick (r : FrameRecord) :
        r.tick = if r.state = .filling ∨ r.state = .ready then { r with age := satInc r.age } else r := by
      unfold FrameRecord.tick
      cases r.state <;> simp
    exact (Table.get_map ..).trans (congrArg (fun f => Option.map f (s.frame i)) (funext htick))
  case line => simp [State.line, countTick, Line.tick, tickTimer_eq]
  case link => simp [countTick, HostLink.tick, tickTimer_eq]

/-! ## The reset state -/

theorem line_reset (n : LineNo) : State.reset.line n = Line.reset false false := by
  simp [State.line, State.reset, State.powerOn]

/-- No frame record stands in an empty place where there is no frame record. -/
theorem standsIn_nil {s : State} (h : s.store.frames = []) (P : FrameRecord → Bool) : s.standsIn [] P := by
  simp [State.standsIn, h]

/-- A part without frames, tags, reject slots and completion entries has them in custody if its lines hold none. -/
theorem custodyKept_of_empty {s : State} (hframes : s.store.frames = []) (htags : s.tags = []) (hrejects : s.rejects = [])
    (hcompletion : s.completion = [])
    (hlines : ∀ n, (s.line n).tx.urgent = [] ∧ (s.line n).tx.normal = [] ∧ (s.line n).tx.current = none ∧
      (s.line n).rx.current = none ∧ (s.line n).rx.queue = []) : s.custodyKept := by
  have hnil := standsIn_nil hframes
  refine ⟨by simp [hframes], fun n => ?line, ?tags, ?completion⟩
  case line =>
    obtain ⟨hurgent, hnormal, htx, hrx, hqueue⟩ := hlines n
    simp only [State.lineCustody, hurgent, hnormal, htx, hrx, hqueue, Option.toList_none]
    exact ⟨hnil _, hnil _, hnil _, hnil _, hnil _⟩
  case tags =>
    simp only [State.tagCustody, htags, List.map_nil]
    exact ⟨hnil _, by simp⟩
  case completion =>
    simp only [State.completionCustody, hcompletion, hrejects, List.filterMap_nil]
    exact ⟨.nil, hnil _, by simp, by simp⟩

/-- Settles O12: in the reset state every table, queue and list is empty. -/
theorem resetStateMeetsLaws : Obligations.ResetStateMeetsLaws := by
  have hframes : State.reset.store.frames = [] := by simp only [State.reset, State.powerOn, Store.reset]
  have hpool : State.reset.store.freeCells = List.range Config.cells := by
    simp only [State.reset, State.powerOn, Store.reset]
  have hretain : State.reset.link.retain = [] := by simp only [State.reset, State.powerOn, HostLink.powerOn]
  refine ⟨⟨by simp [hframes], ?cells⟩, by simp [State.chainsKept, hframes],
    ⟨memoryWf_reset, by simp [hframes], Table.wf_nil, Table.wf_nil⟩,
    custodyKept_of_empty hframes rfl rfl rfl fun n => ?empty, by simp [State.retainedKept, hretain], ?link, ?occupied,
    fun n => ?line⟩
  case cells => simp [State.heldCells, hframes, hpool]
  case empty => simp [line_reset, Line.reset, Transmitter.reset, Receiver.reset]
  case link => simp [HostLink.sound, HostLink.windowKept, HostLink.cursorKept, HostLink.retransTimerKept,
    HostLink.silenceTimerKept, HostLink.stallKept, State.reset, State.powerOn, HostLink.powerOn]
  case occupied =>
    have hreplies : State.reset.replies = [] := by simp only [State.reset, State.powerOn]
    simp [State.occupied, hreplies, line_reset, Line.reset, Transmitter.reset]
  case line =>
    simp [line_reset, Line.placed, Line.bounded, Line.reportsKept, Line.freeGroupCurrent, Line.reset, Transmitter.reset,
      Receiver.reset, ConditionGroup.reset, CloseState.reset, Line.frameCount]

end Sys2Proof.Machine

end

section
-- The proofs below are checked one after another: in parallel each waits for the others with a thread of its own.
set_option Elab.async false

/-! PROOFS. The events of a line: what each comes to, row by row, where one change of the line says it. -/

namespace Sys2Proof.Machine

/-! ## An event of a line -/

theorem lineEvent_of_due {s : State} {n : LineNo} {due : Line → Bool} (hrunning : s.rstLow = false)
    (hdue : due (s.line n) = true) (atTick : Bool) (effect : State → State) :
    lineEvent atTick n due effect s = serve atTick (settleLine atTick n (effect s)) := if_pos ⟨hrunning, hdue⟩

theorem lineEvent_of_not_due {s : State} {n : LineNo} {due : Line → Bool} (hdue : due (s.line n) = false) (atTick : Bool)
    (effect : State → State) : lineEvent atTick n due effect s = s := by
  simp [lineEvent, hdue]

theorem onCurrent_of_current {s : State} {n : LineNo} {i : Nat} (h : (s.line n).tx.current = some i)
    (effect : Nat → State → State) : onCurrent n effect s = effect i s := by
  simp only [onCurrent, h]

/-! ## The end of the lead-in and of a frame -/

/-- The line in GAP behind a frame that its transmitter holds no longer (R65). -/
def Line.gapBehindFrame (l : Line) : Line :=
  { l with tx := { l.tx with current := none, octet := none, gapAfterBreak := false, state := .gap } }

/-- The end of a frame reads of its line nothing that its first step overwrites. -/
theorem endFrame_modLine {f : Line → Line} (n : LineNo) (i : Nat) (s : State)
    (h : (f (s.line n)).gapBehindFrame = (s.line n).gapBehindFrame) : endFrame n i (s.modLine n f) = endFrame n i s := by
  have hgap : (s.modLine n f).modLine n Line.gapBehindFrame = s.modLine n Line.gapBehindFrame := by
    rw [State.modLine_modLine, State.modLine_congr h]
  unfold Line.gapBehindFrame at hgap
  simp only [endFrame, hgap]

/-- Settles O20: the lead-in ends in DATA, or as a trailer does. -/
theorem leadinEndRows : Obligations.LeadinEndRows := by
  intro n i s r hrunning hstate hcurrent hr
  have hexec : exec (.leadinEnd n) s = .next (serve false (settleLine false n (endLeadin n i s))) := by
    have hevent := lineEvent_of_due (due := fun l => decide (l.tx.state = .leadin)) hrunning (decide_eq_true hstate) false
      (onCurrent n (endLeadin n))
    rw [onCurrent_of_current hcurrent] at hevent
    exact congrArg _ hevent
  rw [hexec]
  refine ⟨fun houtcome => ?_, fun houtcome => ?_⟩
  · simp only [endLeadin, hr, houtcome, Option.isSome_none, Bool.false_eq_true, if_false, highFirst, lineCrcFrom,
      FrameRecord.announced, List.foldl_cons, List.foldl_nil]
  · have hend : endLeadin n i s = endFrame n i s := by
      simp only [endLeadin, hr, if_pos (Option.isSome_iff_ne_none.mpr houtcome)]
    rw [hend]
    refine ⟨rfl, ?_⟩
    have hevent := lineEvent_of_due (s := s.modLine n (fun l => { l with tx := { l.tx with state := .trailer } }))
      (due := fun l => decide (l.tx.state = .trailer)) (n := n) hrunning (by simp) false (onCurrent n (endFrame n))
    rw [onCurrent_of_current (i := i) (by simpa using hcurrent), endFrame_modLine n i s rfl] at hevent
    exact congrArg _ hevent

/-! ## The end of a GAP -/

/-- The entry judgment as one change of the receiver (R74, R75, R82). -/
theorem Line.enterListening_eq (l : Line) :
    l.enterListening =
      let x : RxState := if l.config.gateRx = true ∧ l.carrier = false then .gated else if l.isSync then .seek else .discard
      { l with rx := { l.rx with
        state := x, patternRequired := if x = .seek then false else l.rx.patternRequired
        character := if x = .gated then .waiting else l.rx.character } } := by
  simp only [Line.enterListening, Line.entryState, Receiver.enter, Bool.and_eq_true, Bool.not_eq_true']
  split
  · rfl
  · split
    · rfl
    · rfl

/-- Settles O21. -/
theorem gapEndEffect : Obligations.GapEndEffect := by
  intro n s hrunning hstate
  have hevent := lineEvent_of_due (due := fun l => decide (l.tx.state = .gap)) hrunning (decide_eq_true hstate) false
    (fun t => t.modLine n endGap)
  refine congrArg _ (hevent.trans ?_)
  congr 2
  refine State.modLine_congr ?_
  generalize s.line n = l
  by_cases hhalf : l.halfDuplex = true
  · by_cases hmuted : l.rx.state = .muted
    · simp only [endGap, Line.unmute, Line.enterListening_eq, hhalf, hmuted, and_self, if_true]
    · simp only [endGap, Line.unmute, if_pos hhalf, hmuted, and_false, if_false]
  · simp only [endGap, hhalf, Bool.false_eq_true, false_and, if_false]

/-! ## The occupied count -/

/-- The places of the reply queue that a line reserves (R173). -/
def Line.reservedPlaces (l : Line) : Nat := if l.tx.pendingBreak.isSome then 1 else 0

/-- The occupied count is that of the replies and of the reserved places, line by line. -/
theorem State.occupied_eq_sum (s : State) : s.occupied = s.replies.length + ∑ n, (s.line n).reservedPlaces := by
  have hsum (ns : List LineNo) (p : LineNo → Bool) :
      (ns.filter p).length = (ns.map (fun n => if p n then 1 else 0)).sum := by
    induction ns with
    | nil => rfl
    | cons n ns ih => cases h : p n <;> simp [h, ih, Nat.add_comm]
  rw [State.occupied, lineNos, hsum, Fin.sum_univ_def]
  rfl

/-- The reserved places of all lines are those of one line and of the others. -/
theorem State.occupied_eq_add (s : State) (n : LineNo) :
    s.occupied = s.replies.length + ((s.line n).reservedPlaces + ∑ m ∈ Finset.univ.erase n, (s.line m).reservedPlaces) := by
  rw [s.occupied_eq_sum, Finset.add_sum_erase Finset.univ (fun m => (s.line m).reservedPlaces) (Finset.mem_univ n)]

/-- Two states whose lines but one reserve the same places. -/
theorem State.occupied_of_others {s t : State} (n : LineNo)
    (h : ∀ m, m ≠ n → (t.line m).reservedPlaces = (s.line m).reservedPlaces) :
    t.occupied + s.replies.length + (s.line n).reservedPlaces = s.occupied + t.replies.length + (t.line n).reservedPlaces := by
  have hothers : ∑ m ∈ Finset.univ.erase n, (t.line m).reservedPlaces = ∑ m ∈ Finset.univ.erase n, (s.line m).reservedPlaces :=
    Finset.sum_congr rfl fun m hm => h m (Finset.ne_of_mem_erase hm)
  rw [t.occupied_eq_add n, s.occupied_eq_add n, hothers]
  omega

/-- The end of a pending break takes the place that it reserved (R67, R68, R173). -/
theorem occupied_endBreak (n : LineNo) (status : ReplyStatus) (s : State) : (endBreak n status s).occupied = s.occupied := by
  cases hbreak : (s.line n).tx.pendingBreak with
  | none => simp only [endBreak, hbreak]
  | some b =>
    have hothers : ∀ m, m ≠ n → ((endBreak n status s).line m).reservedPlaces = (s.line m).reservedPlaces := by
      intro m hm
      simp only [endBreak, hbreak, State.line_joinReply, State.line_modLine_of_ne _ _ hm]
    have hplaces := State.occupied_of_others n hothers
    have hreplies : (endBreak n status s).replies.length = s.replies.length + 1 := by simp [endBreak, hbreak]
    have hbefore : (s.line n).reservedPlaces = 1 := by simp [Line.reservedPlaces, hbreak]
    have hafter : ((endBreak n status s).line n).reservedPlaces = 0 := by
      simp only [endBreak, hbreak, State.line_joinReply, State.line_modLine_self, Line.reservedPlaces]
      split <;> rfl
    omega

/-! ## Break and turnaround timers -/

/-- Settles O22. -/
theorem lineTimerExpiries : Obligations.LineTimerExpiries := by
  refine ⟨fun n b s hrunning hstate htimer hbreak => ⟨endBreak n .ok s, ?exec, occupied_endBreak n .ok s, ?state⟩,
    fun n s hrunning htimer => ?turnaround⟩
  case exec =>
    exact congrArg _ (lineEvent_of_due (due := fun l => decide (l.tx.state = .breaking) && decide (l.tx.breakTimer = some 0))
      hrunning (by simp [hstate, htimer]) true (endBreak n .ok))
  case state =>
    simp only [endBreak, hbreak]
    refine congrArg (joinReply _) (State.modLine_congr ?_)
    simp only [hstate, if_true]
  case turnaround =>
    exact congrArg _ (lineEvent_of_due (due := fun l => decide (l.tx.turnaroundTimer = some 0)) hrunning
      (decide_eq_true htimer) true _)

/-! ## Character start -/

/-- The lowest-numbered free entry of a table. -/
theorem Table.lowestFree_eq_some {α : Type} {t : List (Nat × α)} {size k : Nat} (hlt : k < size) (hfree : Table.get t k = none)
    (hbelow : ∀ j, j < k → (Table.get t j).isSome = true) : Table.lowestFree t size = some k := by
  refine List.find?_range_eq_some.mpr ⟨by simp [hfree], List.mem_range.mpr hlt, fun j hj => ?_⟩
  simpa using hbelow j hj

/-- With a record free a receiver claims the lowest-numbered one (R17). -/
theorem claimRecord_rx_eq_some {s : State} {i : Nat} (hlt : i < 384) (hfree : s.frame i = none)
    (hbelow : ∀ j, j < i → (s.frame j).isSome = true) (hrecord : s.store.frames.length < 384) :
    claimRecord .rx s = some i := by
  have hcount : 1 ≤ s.freeRecordCount := by
    simp only [State.freeRecordCount, Config.frameRecords]
    omega
  simp only [claimRecord, if_pos hcount]
  exact Table.lowestFree_eq_some hlt hfree hbelow

theorem claimRecord_rx_eq_none {s : State} (hfull : 384 ≤ s.store.frames.length) : claimRecord .rx s = none := by
  have hcount : ¬ 1 ≤ s.freeRecordCount := by
    simp only [State.freeRecordCount, Config.frameRecords]
    omega
  simp only [claimRecord, if_neg hcount]

/-- A frame begins in the record that is claimed (R76, R83). -/
theorem beginFrame_of_record {s : State} {i : Nat} (n : LineNo) (length : Nat) (header : List Byte)
    (h : claimRecord .rx s = some i) :
    beginFrame n length header s = (s.putFrame i { kind := .rx, state := .assembling, line := n }).modLine n (fun l => { l with
      rx := { l.rx with
        state := .assembling, current := some i, count := 0, framingError := false, parityError := false, length := length
        toCome := if (s.line n).isSync then length + 2 else 0, crc := lineCrc header }
      tx := { l.tx with turnaroundTimer := if l.halfDuplex then none else l.tx.turnaroundTimer } }) := by
  simp only [beginFrame, h, FrameRecord.newRx]

/-- Without a record a frame is lost with NOREC (R76, R91). -/
theorem beginFrame_of_no_record {s : State} (n : LineNo) (length : Nat) (header : List Byte) (h : claimRecord .rx s = none) :
    beginFrame n length header s = s.modLine n (fun l => { l with
      rx := { l.rx with
        state := .discard, toCome := if (s.line n).isSync then length + 2 else 0, pendingLoss := true }
      counters := { l.counters with rxLost := satInc l.counters.rxLost } }) := by
  simp only [beginFrame, h, loseFrame, countRxLost, State.modLine_modLine]

/-- Settles O25: by the receiver's state and the free records. -/
theorem characterStartEffect : Obligations.CharacterStartEffect := by
  have hexec {n : LineNo} {s : State} (hrunning : s.rstLow = false) (hdue : (s.line n).awaitsStart = true) :
      exec (.characterStart n) s = .next (serve false (settleLine false n (startCharacter n s))) :=
    congrArg _ (lineEvent_of_due hrunning hdue false _)
  refine ⟨fun n s hrunning hgap hstate hphase => ?reads, fun n s hphase => ?inProgress,
    fun n s hrunning hgap hstate hphase => ?idle⟩
  case reads =>
    rw [hexec hrunning (by rcases hstate with h | h <;> simp [Line.awaitsStart, Line.readsCharacters, inGap, hgap, h, hphase])]
    rcases hstate with h | h <;> simp only [startCharacter, h] <;> rfl
  case inProgress =>
    exact congrArg _ (lineEvent_of_not_due (by simp [Line.awaitsStart, hphase]) false _)
  case idle =>
    rw [hexec hrunning (by simp [Line.awaitsStart, Line.readsCharacters, inGap, hgap, hstate, hphase])]
    refine ⟨fun i hlt hfree hbelow hrecord => ?record, fun hfull => ?lost⟩
    case record =>
      simp only [startCharacter, hstate, beginFrame_of_record n 0 [] (claimRecord_rx_eq_some hlt hfree hbelow hrecord),
        State.modLine_modLine, hgap]
      rfl
    case lost =>
      simp only [startCharacter, hstate, beginFrame_of_no_record n 0 [] (claimRecord_rx_eq_none hfull),
        State.modLine_modLine, hgap]
      rfl

/-! ## Breaks on the line -/

/-- A frame in assembly is discarded and counted in RX_ERRORS, in one change of its line (R124). -/
theorem countRxError_discardAssembly {s : State} {n : LineNo} {i : Nat} (x : RxState) (h : (s.line n).rx.current = some i) :
    countRxError n (discardAssembly n x s) = (freeFrame i s).modLine n (fun l => { l.leaveAssembling x with
      counters := { l.counters with rxErrors := satInc l.counters.rxErrors } }) := by
  simp only [discardAssembly, h, countRxError, State.modLine_modLine]
  refine State.modLine_congr ?_
  generalize (freeFrame i s).line n = l
  simp only [Line.leaveAssembling]
  split <;> rfl

/-- Settles O29. -/
theorem breakRows : Obligations.BreakRows := by
  refine ⟨fun n i s hrunning hgap hstate hcurrent hphase => ?frame, fun n s hrunning hgap hstate hphase => ?none,
    fun n s hphase => ?notNull, fun n s hrunning hgap hstate => ?breakEnds, fun n s hrunning hgap hstate hphase => ?marking⟩
  case frame =>
    have hevent := lineEvent_of_due (n := n) (due := Line.mayBreak) hrunning
      (by simp [Line.mayBreak, Line.readsCharacters, inGap, hgap, hstate, hphase]) false (detectBreak n)
    refine congrArg _ (hevent.trans ?_)
    congr 2
    simp only [detectBreak, hstate]
    split
    case isTrue hcount =>
      rw [countRxError_discardAssembly .breaking hcurrent]
      exact State.modLine_congr (by simp only [freeFrame_line, if_pos hcount])
    case isFalse hcount =>
      simp only [discardAssembly, hcurrent]
      refine State.modLine_congr ?_
      rw [freeFrame_line]
      simp only [Line.leaveAssembling, if_neg hcount]
      split <;> rfl
  case none =>
    have hevent := lineEvent_of_due (n := n) (due := Line.mayBreak) hrunning
      (by rcases hstate with h | h <;> simp [Line.mayBreak, Line.readsCharacters, inGap, hgap, h, hphase]) false (detectBreak n)
    refine congrArg _ (hevent.trans ?_)
    rcases hstate with h | h <;> simp only [detectBreak, h] <;> rfl
  case notNull =>
    exact congrArg _ (lineEvent_of_not_due (by simp [Line.mayBreak, hphase]) false _)
  case breakEnds =>
    have hevent := lineEvent_of_due (n := n) (due := fun l => inGap .breaking l || l.mayBreak) hrunning
      (by simp [inGap, hgap, hstate]) false (returnToMarking n)
    refine congrArg _ (hevent.trans ?_)
    simp only [returnToMarking, hstate]
  case marking =>
    have hevent := lineEvent_of_due (n := n) (due := fun l => inGap .breaking l || l.mayBreak) hrunning
      (by rcases hstate with h | h | h <;> simp [Line.mayBreak, Line.readsCharacters, inGap, hgap, h, hphase]) false
      (returnToMarking n)
    refine congrArg _ (hevent.trans ?_)
    rcases hstate with h | h | h <;> simp only [returnToMarking, h] <;> rfl

/-! ## Pins and conditions -/

/-- Settles O33: by GATE_RX, the level, and the receiver's state. -/
theorem inputPinChanges : Obligations.InputPinChanges := by
  refine ⟨fun n high s hrunning hchange => ?clear, fun n high s hrunning hchange => ?carrier⟩
  case clear => simp [exec, execClearChange, hrunning, hchange]
  case carrier =>
    intro l t gives
    have hexec : gives (carrierEffect n high t) := by simp [gives, exec, execCarrierChange, hrunning, hchange, t]
    have hgate : (t.line n).config.gateRx = l.config.gateRx := by simp [t, l]
    have hstate : (t.line n).rx.state = l.rx.state := by simp [t, l]
    have hcarrier : (t.line n).carrier = high := by simp [t]
    refine ⟨fun hoff => ?ungated, fun hon hhigh hnot => ?listens, fun hon hhigh hgated => ?entry, fun hon hlow hclosed => ?stays,
      fun hon hlow hopen => ?gated, fun i hon hlow hassembling hcurrent => ?frame⟩
    case ungated => simpa only [carrierEffect, hgate, hoff, Bool.false_eq_true, if_false] using hexec
    case listens =>
      have hsame : carrierEffect n high t = t := by
        simp only [carrierEffect, hgate, hon, hhigh, if_true]
        exact State.modLine_of_eq _ _ _ (if_neg (hstate ▸ hnot))
      rwa [hsame] at hexec
    case entry =>
      refine Eq.mp (congrArg gives ?_) hexec
      simp only [carrierEffect, hgate, hon, hhigh, if_true]
      refine State.modLine_congr ?_
      have hnow : (t.line n).rx.state = .gated := hstate.trans hgated
      have hlevel : (t.line n).carrier = true := hcarrier.trans hhigh
      simp only [hnow, if_true, Line.enterListening_eq, hlevel, Bool.true_eq_false, and_false, if_false]
      cases (t.line n).isSync <;> simp
    case stays =>
      have hsame : carrierEffect n high t = t := by
        simp only [carrierEffect, hgate, hon, hlow, if_true, Bool.false_eq_true, if_false, gateReceiver, hstate]
        rcases hclosed with h | h | h <;> simp only [h]
      rwa [hsame] at hexec
    case gated =>
      refine Eq.mp (congrArg gives ?_) hexec
      simp only [carrierEffect, hgate, hon, hlow, if_true, Bool.false_eq_true, if_false, gateReceiver, hstate]
      rcases hopen with h | h | h | h | h <;> simp only [h] <;> rfl
    case frame =>
      refine Eq.mp (congrArg gives ?_) hexec
      simp only [carrierEffect, hgate, hon, hlow, if_true, Bool.false_eq_true, if_false, gateReceiver, hstate, hassembling]
      exact countRxError_discardAssembly .gated (by simpa [t] using hcurrent)

/-- Settles O35. -/
theorem conditionJudgment : Obligations.ConditionJudgment := by
  intro n s l
  refine ⟨fun hopen hfree hnew => ?_, fun hsame => ?_, rfl, rfl, by simp [Line.live], by simp [Line.live, or_assoc]⟩
  · exact State.modLine_congr (if_pos ⟨hopen, hfree, hnew⟩)
  · refine State.modLine_of_eq _ _ _ (if_neg ?_)
    rintro ⟨hopen, hfree, hnew⟩
    rcases hsame with h | h | h
    · exact hopen h
    · exact Bool.false_ne_true (hfree.symm.trans h)
    · exact hnew h

end Sys2Proof.Machine

end

section
-- The proofs below are checked one after another: in parallel each waits for the others with a thread of its own.
set_option Elab.async false

/-! PROOFS. The Line Receiver: characters, gaps, patterns, pairs and sync octets, row by row (4.2 to 4.4). -/

namespace Sys2Proof.Machine

/-! ## The end of ASSEMBLING -/

@[simp] theorem Line.leaveAssembling_config (x : RxState) (l : Line) : (l.leaveAssembling x).config = l.config := by
  unfold Line.leaveAssembling
  split <;> rfl

@[simp] theorem Line.leaveAssembling_counters (x : RxState) (l : Line) : (l.leaveAssembling x).counters = l.counters := by
  unfold Line.leaveAssembling
  split <;> rfl

@[simp] theorem Line.leaveAssembling_rx (x : RxState) (l : Line) :
    (l.leaveAssembling x).rx = { l.rx.enter x with current := none } := by
  unfold Line.leaveAssembling
  split <;> rfl

/-- What the end of reception leaves and what it changes: the receiver, and in half duplex the turnaround timer (R57, R75). -/
theorem Line.leaveAssembling_spec (x : RxState) (l : Line) :
    (l.leaveAssembling x).rx = { l.rx with
      state := x, current := none, patternRequired := if x = .seek then false else l.rx.patternRequired
      character := if x = .off ∨ x = .gated ∨ x = .muted ∨ x = .breaking then .waiting else l.rx.character } := by
  have habandons : x.abandons = true ↔ x = .off ∨ x = .gated ∨ x = .muted ∨ x = .breaking := by
    cases x <;> simp [RxState.abandons]
  simp only [Line.leaveAssembling_rx, Receiver.enter, habandons]

/-! ## Characters -/

theorem Line.config_of_gap {l : Line} (h : l.isSync = false) : ∃ p stop g, l.config.framing = .gap p stop g := by
  unfold Line.isSync at h
  split at h
  next hframing => exact ⟨_, _, _, hframing⟩
  next => cases h

/-- The octet of a character, from its bits on the line (R59). -/
theorem readCharacter_characterOnLine (p : Parity) (b : Byte) :
    readCharacter p (characterOnLine p 1 b) = some { octet := b, framingError := false, parityError := false } := by
  let data : OctetBits := Vector.ofFn (fun k => b.getLsbD k.val)
  have hbits : ∀ k : Fin 8, b.getLsbD k.val = data[k] := fun k => by simp [data]
  have hlist : (List.range 8).map (fun i => b.getLsbD i) = data.toList := by rfl
  cases p
  case none =>
    have hparts := (readCharacter_parts data false true).1
    rw [receivedCharacter_eq hbits] at hparts
    simpa [characterOnLine, hlist, parityMark] using hparts
  case even =>
    have hparts := (readCharacter_parts data (parityBitOf .even b) true).2.1
    rw [receivedCharacter_eq hbits] at hparts
    simpa [characterOnLine, hlist, parityMark] using hparts
  case odd =>
    have hparts := (readCharacter_parts data (parityBitOf .odd b) true).2.2
    rw [receivedCharacter_eq hbits] at hparts
    simpa [characterOnLine, hlist, parityMark] using hparts

/-- A frame in assembly is lost, in one change of its line (R91). -/
theorem loseFrame_discardAssembly {s : State} {n : LineNo} {i : Nat} (x : RxState) (h : (s.line n).rx.current = some i) :
    loseFrame n (discardAssembly n x s) = (freeFrame i s).modLine n (fun l => { l.leaveAssembling x with
      rx := { (l.leaveAssembling x).rx with pendingLoss := true }
      counters := { l.counters with rxLost := satInc l.counters.rxLost } }) := by
  simp only [discardAssembly, h, loseFrame, countRxLost, State.modLine_modLine, Line.leaveAssembling_counters]

theorem lines_of_appendOctet {k : CellClaim} {i : Nat} {b : Byte} {s t : State} (h : appendOctet k i b s = some t) :
    t.lines = s.lines := by
  obtain ⟨r, _, ⟨c, _, _, rfl⟩ | ⟨c, u, _, hclaim, rfl⟩⟩ := appendOctet_eq_some h
  · rfl
  · obtain ⟨-, hu⟩ := claimCell_eq_some hclaim
    rw [hu]
    rfl

/-- Settles O26. -/
theorem characterCompleteRows : Obligations.CharacterCompleteRows := by
  refine ⟨fun x l => ?leaves, fun data b parityBit stopBit hbits => ?reads, fun p samples => ?marking,
    readCharacter_characterOnLine, ?events⟩
  case leaves =>
    refine ⟨l.leaveAssembling_spec x, ?_⟩
    unfold Line.leaveAssembling
    cases hduplex : l.config.duplex with
    | full => simp
    | half d => simp +contextual [startTimer]
  case reads =>
    obtain ⟨hnone, heven, hodd⟩ := readCharacter_parts data parityBit stopBit
    rw [hnone, heven, hodd]
    simp only [receivedCharacter_eq hbits, parityMark, parityBitOf, and_self]
  case marking => cases p <;> rfl
  case events =>
    intro spacing
    have hnull {l : Line} {data : OctetBits} {b : Byte} (hgap : l.isSync = false)
        (hbits : ∀ k : Fin 8, b.getLsbD k.val = data[k]) (parityBit stopBit : Bool) :
        nullCharacter l.parity data parityBit stopBit = spacing l.config.framing b parityBit stopBit := by
      obtain ⟨p, stop, g, hframing⟩ := Line.config_of_gap hgap
      rw [nullCharacter_eq hbits]
      cases p <;> simp [spacing, Line.parity, hframing, Bool.and_right_comm]
    refine ⟨fun n data b parityBit stopBit s hrunning hgap hstate hphase hbits => ?consumed,
      fun n data parityBit stopBit s hphase => ?notDue,
      fun n data b parityBit stopBit i s hrunning hgap hstate hcurrent hbits hphase => ?assembled⟩
    case consumed =>
      have hevent := lineEvent_of_due (n := n) (due := Line.inCharacter) hrunning
        (by rcases hstate with h | h <;> simp [Line.inCharacter, Line.readsCharacters, inGap, hgap, h, hphase]) false
        (completeCharacter n data parityBit stopBit)
      refine congrArg _ (hevent.trans ?_)
      congr 2
      rcases hstate with h | h <;>
      · simp only [completeCharacter, h, hnull hgap hbits]
        exact State.modLine_congr rfl
    case notDue => exact congrArg _ (lineEvent_of_not_due (by simp [Line.inCharacter, hphase]) false _)
    case assembled =>
      intro counted null gives
      obtain ⟨p, stop, g, hframing⟩ := Line.config_of_gap hgap
      have hevent := lineEvent_of_due (n := n) (due := Line.inCharacter) hrunning
        (by simp [Line.inCharacter, Line.readsCharacters, inGap, hgap, hstate, hphase]) false
        (completeCharacter n data parityBit stopBit)
      have hexec : gives (assembleCharacter n (receivedCharacter (s.line n).parity data parityBit stopBit) s) := by
        refine congrArg _ (hevent.trans ?_)
        simp only [completeCharacter, hstate, hnull hgap hbits]
        rfl
      have hcounted : (counted.line n).rx.current = some i := by simpa [counted] using hcurrent
      refine ⟨fun hcount => ?long, fun hcount hrefused => ?nospace, fun hcount t hstored => ?stored⟩
      case long =>
        refine Eq.mp (congrArg gives ?_) hexec
        simp only [assembleCharacter, hcurrent, hcount, Config.longOctets, if_true]
        exact countRxError_discardAssembly .discard hcounted
      case nospace =>
        refine Eq.mp (congrArg gives ?_) hexec
        have hlong : ¬ (s.line n).rx.count + 1 = Config.longOctets := fun h => hcount (Nat.succ_injective h)
        simp only [assembleCharacter, hcurrent, if_neg hlong, receivedCharacter_eq hbits]
        rw [show appendOctet .receiveData i b _ = none from hrefused]
        exact loseFrame_discardAssembly .discard hcounted
      case stored =>
        refine Eq.mp (congrArg gives ?_) hexec
        have hlong : ¬ (s.line n).rx.count + 1 = Config.longOctets := fun h => hcount (Nat.succ_injective h)
        simp only [assembleCharacter, hcurrent, if_neg hlong, receivedCharacter_eq hbits]
        rw [show appendOctet .receiveData i b _ = some t from hstored]
        have hline : (t.line n).config = (s.line n).config := by
          simp [State.line_of_lines_eq (lines_of_appendOctet hstored), counted]
        refine State.modLine_congr ?_
        simp only [hline, hframing]
        cases p <;> simp [Line.parity, hframing, parityMark, parityBitOf]

/-! ## The end of a frame -/

/-- A frame of a class that is queued (R86): OK, or any other under DELIVER_ERRORS. -/
theorem disposeFrame_queued {s : State} {n : LineNo} {o : FrameOutcome} (i : Nat) (trim : Bool)
    (h : o = .ok ∨ (s.line n).config.deliverErrors = true) :
    disposeFrame n i o trim s =
      placeFrame n i (if trim then trimFrame i (s.modFrame i (fun r => r.fixOutcome o))
        else s.modFrame i (fun r => r.fixOutcome o)) := if_pos h

theorem disposeFrame_discarded {s : State} {n : LineNo} {o : FrameOutcome} (i : Nat) (trim : Bool) (ho : o ≠ .ok)
    (h : (s.line n).config.deliverErrors = false) : disposeFrame n i o trim s = countRxError n (freeFrame i s) :=
  if_neg (by simp [ho, h])

/-- Settles O27: by the class of the frame (Table 4.3), then by DELIVER_ERRORS. -/
theorem receiveGapRows : Obligations.ReceiveGapRows := by
  refine ⟨fun n s hrunning hgap hstate hphase => ?discard, fun n s hphase => ?inProgress,
    fun n i s r hrunning hgap hstate hcurrent hr hphase => ?frame⟩
  case discard =>
    have hevent := lineEvent_of_due (n := n) (due := fun l => (inGap .assembling l || inGap .discard l) && !l.inCharacter)
      hrunning (by simp [inGap, hgap, hstate, Line.inCharacter, hphase]) false (takeGap n)
    refine congrArg _ (hevent.trans ?_)
    simp only [takeGap, hstate]
  case inProgress =>
    refine congrArg _ (lineEvent_of_not_due ?_ false _)
    generalize s.line n = l at hphase
    cases hassembling : inGap .assembling l <;> cases hdiscard : inGap .discard l <;>
      simp [Line.inCharacter, Line.readsCharacters, hassembling, hdiscard, hphase]
  case frame =>
    intro rx octets left passes gives discarded queued faulty
    have hevent := lineEvent_of_due (n := n) (due := fun l => (inGap .assembling l || inGap .discard l) && !l.inCharacter)
      hrunning (by simp [inGap, hgap, hstate, Line.inCharacter, hphase]) false (takeGap n)
    have hexec : gives (takeGap n s) := congrArg _ hevent
    have hdeliver : (left.line n).config.deliverErrors = (s.line n).config.deliverErrors := by simp [left]
    have hshort (h : gapClass rx octets = none) : gives discarded := by
      have hends : takeGap n s = discarded := by
        simp only [takeGap, hstate, endGapFrame, hcurrent, hr, Option.elim_some]
        rw [show gapClass _ _ = none from h]
        rfl
      rwa [hends] at hexec
    have hends {o : FrameOutcome} (h : gapClass rx octets = some o) : takeGap n s = disposeFrame n i o true left := by
      simp only [takeGap, hstate, endGapFrame, hcurrent, hr, Option.elim_some]
      rw [show gapClass _ _ = some o from h]
    have hqueued {o : FrameOutcome} (h : gapClass rx octets = some o) (hq : o = .ok ∨ (s.line n).config.deliverErrors = true) :
        gives (queued o) := by
      rwa [hends h, disposeFrame_queued i true (hdeliver ▸ hq), if_pos rfl] at hexec
    have hfaulty {o : FrameOutcome} (h : gapClass rx octets = some o) (ho : o ≠ .ok) : faulty o := by
      refine ⟨fun hno => ?_, fun hyes => hqueued h (.inr hyes)⟩
      rwa [hends h, disposeFrame_discarded i true ho (hdeliver.trans hno)] at hexec
    refine ⟨fun hcount => hshort (if_pos hcount), fun hcount hframing => hfaulty ?_ (by decide),
      fun hcount hframing hparity => hfaulty ?_ (by decide), fun hcount hframing hparity hcrc => hfaulty ?_ (by decide),
      fun hcount hframing hparity hcrc => hqueued ?_ (.inl rfl)⟩
    · simp [gapClass, Nat.not_lt.mpr hcount, hframing]
    · simp [gapClass, Nat.not_lt.mpr hcount, hframing, hparity]
    · have hfails : gapCrcPasses octets = false := decide_eq_false hcrc
      simp [gapClass, Nat.not_lt.mpr hcount, hframing, hparity, hfails]
    · have hpasses : gapCrcPasses octets = true := decide_eq_true hcrc
      simp [gapClass, Nat.not_lt.mpr hcount, hframing, hparity, hpasses]

/-! ## Sync framing -/

theorem Line.isSync_of_sync {l : Line} {clock : ClockSource} {pattern leadIn : Nat}
    (h : l.config.framing = .sync clock pattern leadIn) : l.isSync = true := by
  simp [Line.isSync, h]

/-- Settles O30: the match by the search for the pattern, the pair by the rows of Table 4.4. -/
theorem patternAndPairRows : Obligations.PatternAndPairRows := by
  refine ⟨fun seen clock pattern leadIn s hrunning hframing hstate => ?search,
    fun n highBits lowBits high low clock pattern leadIn s hrunning hframing hstate hhigh hlow => ?pair⟩
  case search =>
    intro patternBits found
    have hmatch : (s.line seen.line).matchesPattern seen.bits = true ↔ found := by
      simp only [Line.matchesPattern, Line.pattern, hframing, Option.any_some, decide_eq_true_eq, found, patternBits,
        ← patternOnLine_eq]
      exact seekPattern_finds_at_end pattern seen.bits
    have hseek : inSync .seek (s.line seen.line) = true := by simp [inSync, Line.isSync_of_sync hframing, hstate]
    refine ⟨fun hfound => congrArg _ (lineEvent_of_due hrunning ?_ false _),
      fun hnot => congrArg _ (lineEvent_of_not_due ?_ false _)⟩
    · simp only [hseek, hmatch.mpr hfound, Bool.and_self]
    · simp only [hseek, Bool.true_and]
      exact Bool.eq_false_iff.mpr fun h => hnot (hmatch.mp h)
  case pair =>
    intro v required seek gives
    have hsync := Line.isSync_of_sync hframing
    have hevent := lineEvent_of_due (n := n) (due := inSync .synced) hrunning (by simp [inSync, hsync, hstate]) false
      (takePair n high low)
    have hexec : gives (takePair n high low s) := by
      simp only [gives, exec, execPair, receivedOctet_eq hhigh, receivedOctet_eq hlow]
      exact congrArg _ hevent
    have hseek (l : Line) : { l with rx := l.rx.enter .seek } = seek l := rfl
    refine ⟨fun heq => ?again, fun hne hrequired => ?unmatched, fun hne hrequired hrange => ?bad,
      fun hne hrequired hlow hhigh => ?begins⟩
    case again =>
      refine Eq.mp (congrArg gives ?_) hexec
      simp only [takePair, hframing]
      exact if_pos heq
    case unmatched =>
      refine Eq.mp (congrArg gives ?_) hexec
      simp only [takePair, hframing]
      exact (if_neg hne).trans (if_pos hrequired)
    case bad =>
      refine Eq.mp (congrArg gives ?_) hexec
      have hout : ¬ (1 ≤ v ∧ v ≤ Config.maxFrame) := by
        simp only [Config.maxFrame]
        omega
      simp only [takePair, hframing]
      refine (if_neg hne).trans ((if_neg (Bool.not_eq_true _ ▸ hrequired)).trans ((if_neg hout).trans ?_))
      simp only [countRxError, State.modLine_modLine]
      rfl
    case begins =>
      have hin : 1 ≤ v ∧ v ≤ Config.maxFrame := ⟨hlow, hhigh⟩
      have hbegins : takePair n high low s = beginFrame n v [high, low] s := by
        simp only [takePair, hframing]
        exact (if_neg hne).trans ((if_neg (Bool.not_eq_true _ ▸ hrequired)).trans (if_pos hin))
      rw [hbegins] at hexec
      refine ⟨fun i hlt hfree hbelow hrecord => ?_, fun hfull => ?_⟩
      · rw [beginFrame_of_record n v [high, low] (claimRecord_rx_eq_some hlt hfree hbelow hrecord), if_pos hsync] at hexec
        exact hexec
      · rw [beginFrame_of_no_record n v [high, low] (claimRecord_rx_eq_none hfull), if_pos hsync] at hexec
        exact hexec

/-- Settles O31: by the receiver's state, then by the octets still to come. -/
theorem syncOctetRows : Obligations.SyncOctetRows := by
  refine ⟨fun n bits s hrunning hsync hstate => ?discard,
    fun n bits b i s hrunning hsync hstate hcurrent hbits => ?assembling⟩
  case discard =>
    have hevent := lineEvent_of_due (n := n) (due := fun l => inSync .assembling l || inSync .discard l) hrunning
      (by simp [inSync, hsync, hstate]) false (takeSyncOctet n (receivedOctet bits))
    refine congrArg _ (hevent.trans ?_)
    simp only [takeSyncOctet, hstate]
    rfl
  case assembling =>
    intro rx counted left passes gives queued
    have hevent := lineEvent_of_due (n := n) (due := fun l => inSync .assembling l || inSync .discard l) hrunning
      (by simp [inSync, hsync, hstate]) false (takeSyncOctet n (receivedOctet bits))
    have hexec : gives (assembleSyncOctet n b s) := by
      refine congrArg _ (hevent.trans ?_)
      simp only [takeSyncOctet, hstate, receivedOctet_eq hbits]
    have hcounted : (counted.line n).rx.current = some i := by simpa [counted] using hcurrent
    have hends (htoCome : rx.toCome < 2) : assembleSyncOctet n b s =
        disposeFrame n i (if highFirst rx.crc.toNat = [rx.crcHigh, b] then .ok else .crc) false left := by
      have hmore : ¬ 2 < rx.toCome := by omega
      have hfirst : ¬ rx.toCome = 2 := by omega
      simp only [assembleSyncOctet]
      refine (if_neg hmore).trans ((if_neg hfirst).trans ?_)
      simp only [endSyncFrame, State.line_modLine_self, hcurrent]
      rfl
    have hdeliver : (left.line n).config.deliverErrors = (s.line n).config.deliverErrors := by simp [left, counted]
    refine ⟨fun hmore hrefused => ?nospace, fun hmore t hstored => ?stored, fun htwo => ?first,
      fun hlast hpasses => ?ok, fun hlast hfails hyes => ?queued, fun hlast hfails hno => ?discarded⟩
    case nospace =>
      refine Eq.mp (congrArg gives ?_) hexec
      simp only [assembleSyncOctet]
      refine (if_pos hmore).trans ?_
      simp only [hcurrent]
      rw [show appendOctet .receiveData i b _ = none from hrefused]
      exact loseFrame_discardAssembly .discard hcounted
    case stored =>
      refine Eq.mp (congrArg gives ?_) hexec
      simp only [assembleSyncOctet]
      refine (if_pos hmore).trans ?_
      simp only [hcurrent]
      rw [show appendOctet .receiveData i b _ = some t from hstored]
    case first =>
      refine Eq.mp (congrArg gives ?_) hexec
      have hmore : ¬ 2 < rx.toCome := by omega
      simp only [assembleSyncOctet]
      exact (if_neg hmore).trans (if_pos htwo)
    case ok =>
      rw [hends hlast, if_pos hpasses, disposeFrame_queued i false (.inl rfl)] at hexec
      exact hexec
    case queued =>
      rw [hends hlast, if_neg hfails, disposeFrame_queued i false (.inr (hdeliver.trans hyes))] at hexec
      exact hexec
    case discarded =>
      rw [hends hlast, if_neg hfails, disposeFrame_discarded i false (by decide) (hdeliver.trans hno)] at hexec
      exact hexec

end Sys2Proof.Machine

end

section
-- The proofs below are checked one after another: in parallel each waits for the others with a thread of its own.
set_option Elab.async false

/-! PROOFS. The fields of the commands of the lines (Tables 6.2 and 10.5): which values are taken. -/

namespace Sys2Proof.Machine

/-! ## Fields with a range -/

theorem rangeField_eq_some {low high v w : Nat} : rangeField low high v = some w ↔ low ≤ v ∧ v ≤ high ∧ w = v := by
  unfold rangeField
  split
  case isTrue h => simp [h, eq_comm]
  case isFalse h => simp only [reduceCtorEq, false_iff]; exact fun ⟨hlow, hhigh, _⟩ => h ⟨hlow, hhigh⟩

theorem word16_le (low high : Byte) : word16 low high ≤ 65535 := by
  have hlow := low.isLt
  have hhigh := high.isLt
  unfold word16
  omega

theorem lifetimeField_eq_some {v w : Nat} (hv : v ≤ 65535) : lifetimeField v = some w ↔ (v = 0 ∨ 10 ≤ v) ∧ w = v := by
  unfold lifetimeField
  split
  case isTrue h => simp [h, eq_comm]
  case isFalse h => simp only [rangeField_eq_some, h, hv, true_and, false_or]

/-- The four parity, clock, duplex and framing fields take their codes alone. -/
theorem parityField_eq_some {b : Byte} {p : Parity} :
    parityField b = some p ↔ (b = 0#8 ∧ p = .none) ∨ (b = 1#8 ∧ p = .even) ∨ (b = 2#8 ∧ p = .odd) := by
  unfold parityField
  split_ifs with h0 h1 h2
  · simp [h0, eq_comm]
  · simp [h1, eq_comm]
  · simp [h2, eq_comm]
  · simp [h0, h1, h2]

theorem clockField_eq_some {b : Byte} {c : ClockSource} :
    clockField b = some c ↔ (b = 0#8 ∧ c = .line) ∨ (b = 1#8 ∧ c = .internal) := by
  unfold clockField
  split_ifs with h0 h1
  · simp [h0, eq_comm]
  · simp [h1, eq_comm]
  · simp [h0, h1]

theorem duplexField_eq_some {b turn : Byte} {d : Duplex} :
    duplexField b turn = some d ↔ (b = 0#8 ∧ d = .full) ∨ (b = 1#8 ∧ d = .half turn.toNat) := by
  unfold duplexField
  split_ifs with h0 h1
  · simp [h0, eq_comm]
  · simp [h1, eq_comm]
  · simp [h0, h1]

/-- The framing field decides which of the other fields are read (R109, R110). -/
theorem framingFields_eq_some {framing clock parity stop gap leadIn : Byte} {pattern : Nat} {f : Framing} :
    framingFields framing clock parity stop gap pattern leadIn = some f ↔
      (framing = 0#8 ∧ 1 ≤ stop.toNat ∧ stop.toNat ≤ 2 ∧ 2 ≤ gap.toNat ∧ gap.toNat ≤ 16 ∧
          ∃ p, parityField parity = some p ∧ f = .gap p stop.toNat gap.toNat) ∨
        (framing = 1#8 ∧ 1 ≤ pattern ∧ pattern ≤ 65534 ∧ 2 ≤ leadIn.toNat ∧ leadIn.toNat ≤ 15 ∧
          ∃ c, clockField clock = some c ∧ f = .sync c pattern leadIn.toNat) := by
  by_cases h0 : framing = 0#8
  · have hfield : isSyncField framing = some false := if_pos h0
    simp only [framingFields, hfield]
    constructor
    · intro h
      split at h
      next p b g hp hb hg =>
        obtain ⟨hb1, hb2, rfl⟩ := rangeField_eq_some.mp hb
        obtain ⟨hg1, hg2, rfl⟩ := rangeField_eq_some.mp hg
        exact .inl ⟨h0, hb1, hb2, hg1, hg2, p, hp, (Option.some.inj h).symm⟩
      next => cases h
    · rintro (⟨-, hb1, hb2, hg1, hg2, p, hp, rfl⟩ | ⟨h1, -⟩)
      · simp only [hp, rangeField_eq_some.mpr ⟨hb1, hb2, rfl⟩, rangeField_eq_some.mpr ⟨hg1, hg2, rfl⟩]
      · exact absurd (h0.symm.trans h1) (by decide)
  · by_cases h1 : framing = 1#8
    · have hfield : isSyncField framing = some true := (if_neg h0).trans (if_pos h1)
      simp only [framingFields, hfield]
      constructor
      · intro h
        split at h
        next c p k hc hp hk =>
          obtain ⟨hp1, hp2, rfl⟩ := rangeField_eq_some.mp hp
          obtain ⟨hk1, hk2, rfl⟩ := rangeField_eq_some.mp hk
          exact .inr ⟨h1, hp1, hp2, hk1, hk2, c, hc, (Option.some.inj h).symm⟩
        next => cases h
      · rintro (⟨h, -⟩ | ⟨-, hp1, hp2, hk1, hk2, c, hc, rfl⟩)
        · exact absurd h h0
        · simp only [hc, rangeField_eq_some.mpr ⟨hk1, hk2, rfl⟩,
            (rangeField_eq_some (low := 0x0001) (high := 0xFFFE)).mpr ⟨hp1, hp2, rfl⟩]
    · have hfield : isSyncField framing = none := (if_neg h0).trans (if_neg h1)
      simp [framingFields, hfield, h0, h1]

/-- The seven values of SET_LINE are taken exactly when each is in its range (R113). -/
theorem valueFields_eq_some {weight threshold options quota limit : Byte} {life : Nat} {v : LineValues} (hlife : life ≤ 65535) :
    valueFields weight life threshold options quota limit = some v ↔
      (1 ≤ weight.toNat ∧ weight.toNat ≤ 15 ∧ (life = 0 ∨ 10 ≤ life) ∧ threshold.toNat ≤ 32 ∧ 1 ≤ quota.toNat ∧
        quota.toNat ≤ 32 ∧ 1 ≤ limit.toNat ∧ limit.toNat ≤ 64) ∧
      v = { weight := weight.toNat, lifetime := life, threshold := threshold.toNat, deliverErrors := options.getLsbD 2
            reportConditions := options.getLsbD 3, quota := quota.toNat, limit := limit.toNat } := by
  unfold valueFields
  constructor
  · intro h
    split at h
    next w l t q m hw hl ht hq hm =>
      obtain ⟨hw1, hw2, rfl⟩ := rangeField_eq_some.mp hw
      obtain ⟨hl, rfl⟩ := (lifetimeField_eq_some hlife).mp hl
      obtain ⟨-, ht2, rfl⟩ := rangeField_eq_some.mp ht
      obtain ⟨hq1, hq2, rfl⟩ := rangeField_eq_some.mp hq
      obtain ⟨hm1, hm2, rfl⟩ := rangeField_eq_some.mp hm
      exact ⟨⟨hw1, hw2, hl, ht2, hq1, hq2, hm1, hm2⟩, (Option.some.inj h).symm⟩
    next => cases h
  · rintro ⟨⟨hw1, hw2, hl, ht2, hq1, hq2, hm1, hm2⟩, rfl⟩
    simp only [rangeField_eq_some.mpr ⟨hw1, hw2, rfl⟩, (lifetimeField_eq_some hlife).mpr ⟨hl, rfl⟩,
      rangeField_eq_some.mpr ⟨Nat.zero_le _, ht2, rfl⟩, rangeField_eq_some.mpr ⟨hq1, hq2, rfl⟩,
      rangeField_eq_some.mpr ⟨hm1, hm2, rfl⟩]

/-- Settles O36: each field by its own range, the framing's by the framing. -/
theorem openLineParameterRanges : Obligations.OpenLineParameterRanges := by
  intro framing rate clock parity stop gap pLow pHigh leadIn duplex turn options quota limit weight lLow lHigh threshold c
    pattern life
  have hlife : word16 lLow lHigh ≤ 65535 := word16_le lLow lHigh
  constructor
  · intro h
    simp only [openFields] at h
    split at h
    next f r d v hf hr hd hv =>
      obtain rfl := Option.some.inj h
      obtain ⟨-, hr2, rfl⟩ := rangeField_eq_some.mp hr
      obtain ⟨⟨hw1, hw2, hl, ht, hq1, hq2, hm1, hm2⟩, rfl⟩ := (valueFields_eq_some hlife).mp hv
      refine ⟨?_, hr2, rfl, duplexField_eq_some.mp hd, rfl, rfl, rfl, rfl, rfl, hq1, hq2, rfl, hm1, hm2, rfl, hw1, hw2, rfl,
        hl, rfl, ht, rfl⟩
      rcases framingFields_eq_some.mp hf with ⟨h0, hb1, hb2, hg1, hg2, p, hp, rfl⟩ | ⟨h1, hp1, hp2, hk1, hk2, c, hc, rfl⟩
      · refine .inl ⟨h0, hb1, hb2, hg1, hg2, ?_⟩
        rcases parityField_eq_some.mp hp with ⟨hb, rfl⟩ | ⟨hb, rfl⟩ | ⟨hb, rfl⟩
        · exact .inl ⟨hb, rfl⟩
        · exact .inr (.inl ⟨hb, rfl⟩)
        · exact .inr (.inr ⟨hb, rfl⟩)
      · refine .inr ⟨h1, hp1, hp2, hk1, hk2, ?_⟩
        rcases clockField_eq_some.mp hc with ⟨hb, rfl⟩ | ⟨hb, rfl⟩
        · exact .inl ⟨hb, rfl⟩
        · exact .inr ⟨hb, rfl⟩
    next => cases h
  · obtain ⟨cframing, crate, cduplex, cgateTx, cgateRx, crequest, cdeliver, creport, cquota, climit, cweight, clife, cthreshold⟩ := c
    rintro ⟨hf, hr, rfl, hd, rfl, rfl, rfl, rfl, rfl, hq1, hq2, rfl, hm1, hm2, rfl, hw1, hw2, rfl, hl, rfl, ht, rfl⟩
    have hframing : framingFields framing clock parity stop gap pattern leadIn = some cframing := by
      refine framingFields_eq_some.mpr ?_
      rcases hf with ⟨h0, hb1, hb2, hg1, hg2, hp⟩ | ⟨h1, hp1, hp2, hk1, hk2, hc⟩
      · refine .inl ⟨h0, hb1, hb2, hg1, hg2, ?_⟩
        rcases hp with ⟨hb, hp⟩ | ⟨hb, hp⟩ | ⟨hb, hp⟩
        · exact ⟨.none, parityField_eq_some.mpr (.inl ⟨hb, rfl⟩), hp⟩
        · exact ⟨.even, parityField_eq_some.mpr (.inr (.inl ⟨hb, rfl⟩)), hp⟩
        · exact ⟨.odd, parityField_eq_some.mpr (.inr (.inr ⟨hb, rfl⟩)), hp⟩
      · refine .inr ⟨h1, hp1, hp2, hk1, hk2, ?_⟩
        rcases hc with ⟨hb, hc⟩ | ⟨hb, hc⟩
        · exact ⟨.line, clockField_eq_some.mpr (.inl ⟨hb, rfl⟩), hc⟩
        · exact ⟨.internal, clockField_eq_some.mpr (.inr ⟨hb, rfl⟩), hc⟩
    have hvalues := (valueFields_eq_some (v := _) (options := options) hlife).mpr ⟨⟨hw1, hw2, hl, ht, hq1, hq2, hm1, hm2⟩, rfl⟩
    have hrate := rangeField_eq_some.mpr ⟨Nat.zero_le _, hr, rfl⟩
    simp only [openFields, hvalues, hrate, duplexField_eq_some.mpr hd, show framingFields _ _ _ _ _ (word16 pLow pHigh) _ = _ from hframing]
    rfl

end Sys2Proof.Machine

end

section
-- The proofs below are checked one after another: in parallel each waits for the others with a thread of its own.
set_option Elab.async false

/-! PROOFS. The commands of the lines and of the device: their checks in order, and what an accepted one does. -/

namespace Sys2Proof.Machine

/-! ## The event of a command -/

/-- The event of a command that is executed, with parameters of its length. -/
theorem exec_command {s : State} {c : CommandCode} {tag : Byte} {ps : List Byte} (h : s.Executes c tag ps)
    (hlength : ps.length = c.paramLength) :
    exec c.row s = .next (serve false (endExecution (commandBody c tag ps s))) := by
  have hevent := h.knownEvent_eq (commandBody c) hlength
  cases c <;> exact congrArg Host.Outcome.next hevent

theorem exec_command_refused {s : State} {c : CommandCode} {tag : Byte} {ps : List Byte} {status : ReplyStatus}
    (h : s.Executes c tag ps) (hlength : ps.length = c.paramLength)
    (hbody : commandBody c tag ps s = refuse c tag status s) : exec c.row s = .next (s.answered c tag status []) := by
  rw [exec_command h hlength, hbody]
  rfl

theorem exec_command_ok {s u : State} {c : CommandCode} {tag : Byte} {ps results : List Byte} (h : s.Executes c tag ps)
    (hlength : ps.length = c.paramLength) (hbody : commandBody c tag ps s = replyOk c tag results u) :
    exec c.row s = .next (u.answered c tag .ok results) := by
  rw [exec_command h hlength, hbody]
  rfl

/-! ## OPEN_LINE and SET_LINE -/

/-- The line an OPEN_LINE opens, in one change (R112): the entry judgment gives no state in which BREAK or SYNCED is live. -/
theorem Line.openWith_eq (c : LineConfig) (l : Line) :
    l.openWith c =
      let sync : Bool := Line.isSync { l with config := c }
      let x : RxState := if c.gateRx = true ∧ l.carrier = false then .gated else if sync then .seek else .discard
      { l with
        state := .opened, config := c
        counters := { txFrames := 0, txAborts := 0, rxFrames := 0, rxErrors := 0, rxLost := 0 }
        tx := { l.tx with state := .idle, turnaroundTimer := none }
        rx := { l.rx with
          state := x, nextNumber := 0, pendingLoss := false
          patternRequired := if x = .seek then false else l.rx.patternRequired
          character := if x = .gated then .waiting else l.rx.character }
        group :=
          { snapshot := { carrier := l.carrier, clear := l.clear, breaking := false, synced := false }
            latched := false, reportPending := false } } := by
  simp only [Line.openWith, Line.enterListening_eq, LineCounters.zero, Line.live]
  cases hframing : c.framing with
  | gap p stop g =>
    by_cases hgated : c.gateRx = true ∧ l.carrier = false <;> simp [Line.isSync, hframing, hgated]
  | sync clock pattern leadIn =>
    by_cases hgated : c.gateRx = true ∧ l.carrier = false <;> simp [Line.isSync, hframing, hgated]

/-- Settles O37. -/
theorem openLineEffect : Obligations.OpenLineEffect := by
  intro s tag line rest h hlength
  have hparams : (line :: rest).length = CommandCode.openLine.paramLength := congrArg (· + 1) hlength
  refine ⟨fun hbad => exec_command_refused h hparams ?_, fun n hn => ⟨fun hnone => exec_command_refused h hparams ?_,
    fun c hc => ⟨fun hstate => exec_command_refused h hparams ?_, fun hclosed hreported => ?_⟩⟩⟩
  · simp only [commandBody, openLineBody, lineField_eq_none hbad]
  · simp only [commandBody, openLineBody, lineField_eq_some hn, hnone]
  · simp only [commandBody, openLineBody, lineField_eq_some hn, hc]
    exact if_pos hstate
  · intro sync
    have hsync : sync = Line.isSync { s.line n with config := c } := by
      cases hframing : c.framing <;> simp [sync, Line.isSync, hframing]
    refine exec_command_ok h hparams ?_
    simp only [commandBody, openLineBody, lineField_eq_some hn, hc]
    refine (if_neg (by simp [hclosed, hreported])).trans ?_
    refine congrArg (fun u => replyOk .openLine tag [] (settleLine false n u)) (State.modLine_congr ?_)
    rw [Line.openWith_eq, hsync]

/-- Settles O38. -/
theorem setLineEffect : Obligations.SetLineEffect := by
  intro s tag line weight lLow lHigh threshold options quota limit h life inRange
  have hlife : word16 lLow lHigh ≤ 65535 := word16_le lLow lHigh
  refine ⟨fun hbad => exec_command_refused h rfl ?_, fun n hn => ?_⟩
  · simp only [commandBody, setLineBody, lineField_eq_none hbad]
  · intro allowed
    refine ⟨fun hout => exec_command_refused h rfl ?_, fun hin hnot => exec_command_refused h rfl ?_,
      fun hin hallowed => exec_command_ok h rfl ?_⟩
    · have hnone : setFields [weight, lLow, lHigh, threshold, options, quota, limit] = none := by
        refine Option.eq_none_iff_forall_ne_some.mpr fun v hv => hout ?_
        exact ((valueFields_eq_some hlife).mp hv).1
      simp only [commandBody, setLineBody, lineField_eq_some hn, hnone]
    · have hvalues := (valueFields_eq_some (v := _) (options := options) hlife).mpr ⟨hin, rfl⟩
      simp only [commandBody, setLineBody, lineField_eq_some hn, setFields, hvalues]
      refine if_pos ?_
      by_contra hcon
      simp only [not_or, not_not, Nat.not_lt] at hcon
      exact hnot hcon
    · obtain ⟨hopened, hqueue, hcount⟩ := hallowed
      have hvalues := (valueFields_eq_some (v := _) (options := options) hlife).mpr ⟨hin, rfl⟩
      simp only [commandBody, setLineBody, lineField_eq_some hn, setFields, hvalues]
      exact if_neg (by simp [hopened, hqueue, hcount])

/-! ## QUERY_LINE -/

theorem clearFlag_eq_none {b : Byte} (h : 2 ≤ b.toNat) : clearFlag b = none := by
  have h0 : b ≠ 0#8 := by rintro rfl; simp at h
  have h1 : b ≠ 1#8 := by rintro rfl; simp at h
  simp [clearFlag, h0, h1]

/-- Settles O41. -/
theorem queryLineEffect : Obligations.QueryLineEffect := by
  intro s tag line flag h
  refine ⟨fun hbad => exec_command_refused h rfl ?_, fun n hn => ?_⟩
  · simp only [commandBody, queryLineBody, lineField_eq_none hbad]
  · intro l bit lineCode closeBits lineFlags framingCode duplexCode options txCode rxCode conditionBits
    refine ⟨fun hflag => exec_command_refused h rfl ?_, fun hflag => exec_command_ok h rfl ?_,
      fun hflag => exec_command_ok h rfl ?_, ?_⟩
    · simp only [commandBody, queryLineBody, lineField_eq_some hn, clearFlag_eq_none hflag]
    · subst hflag
      simp only [commandBody, queryLineBody, lineField_eq_some hn]
      rfl
    · subst hflag
      simp only [commandBody, queryLineBody, lineField_eq_some hn]
      rfl
    · have hline : lineCode = l.state.code := by cases hx : l.state <;> simp [lineCode, hx, LineState.code]
      have hframing : framingCode = l.config.framing.code := by
        cases hx : l.config.framing <;> simp [framingCode, hx, Framing.code]
      have hduplex : duplexCode = l.config.duplex.code := by
        cases hx : l.config.duplex <;> simp [duplexCode, hx, Duplex.code]
      have htx : txCode = l.tx.state.code := by cases hx : l.tx.state <;> simp [txCode, hx, TxState.code]
      have hrx : rxCode = l.rx.state.code := by cases hx : l.rx.state <;> simp [rxCode, hx, RxState.code]
      have hclose : closeBits = l.closeModeBits := rfl
      have hflags : lineFlags = l.flagBits := rfl
      have hoptions : options = l.config.optionBits := rfl
      have hbits (c : Conditions) : conditionBits c = c.bits := rfl
      simp only [hline, hframing, hduplex, htx, hrx, hclose, hflags, hoptions, hbits]
      have hdrain (k : Nat) (hk : l.drainRemaining = k) : ((lineOctets n s).drop 3).take 2 = octets16 k := by
        simp [lineOctets, octets16, ← hk, l]
      refine ⟨by simp [lineOctets, octets16], fun k hk hle => hdrain k ?_, fun hk => hdrain 0 ?_, ?_⟩
      · simp only [Line.drainRemaining, hk]
        exact if_pos hle
      · simp only [Line.drainRemaining, hk]
      · simp [lineOctets, octets16, discardingCount, l]

end Sys2Proof.Machine

end

section
-- The proofs below are checked one after another: in parallel each waits for the others with a thread of its own.
set_option Elab.async false

/-! PROOFS. SEND_BREAK, SEEK_LINE, CANCEL_FRAME, SET_DEVICE and QUERY_DEVICE, row by row. -/

namespace Sys2Proof.Machine

/-! ## SEND_BREAK and SEEK_LINE -/

/-- An accepted SEND_BREAK forms no reply yet (R66). -/
theorem exec_command_taken {s u : State} {c : CommandCode} {tag : Byte} {ps : List Byte} (h : s.Executes c tag ps)
    (hlength : ps.length = c.paramLength) (hbody : commandBody c tag ps s = u) : exec c.row s = .next u.taken := by
  rw [exec_command h hlength, hbody]
  rfl

/-- Settles O42. -/
theorem sendBreakAndSeekLine : Obligations.SendBreakAndSeekLine := by
  refine ⟨fun s tag line low high h => ?sendBreak, fun s tag line h => ?seekLine⟩
  case sendBreak =>
    intro d
    refine ⟨fun hbad => exec_command_refused h rfl ?_, fun n hn => ?_⟩
    · simp only [commandBody, sendBreakBody, lineField_eq_none hbad]
    · refine ⟨fun hzero => exec_command_refused h rfl ?_, fun hd hstate => exec_command_refused h rfl ?_,
        fun hd hopened hgap hbusy => exec_command_refused h rfl ?_, fun hd hopened hgap hfree => exec_command_taken h rfl ?_⟩ <;>
        simp only [commandBody, sendBreakBody, lineField_eq_some hn]
      · exact if_pos hzero
      · exact (if_neg hd).trans (if_pos hstate)
      · exact (if_neg hd).trans ((if_neg (by simp [hopened, hgap])).trans (if_pos hbusy))
      · exact (if_neg hd).trans ((if_neg (by simp [hopened, hgap])).trans (if_neg (by simp [hfree])))
  case seekLine =>
    refine ⟨fun hbad => exec_command_refused h rfl ?_, fun n hn => ?_⟩
    · simp only [commandBody, seekLineBody, lineField_eq_none hbad]
    · intro gives
      refine ⟨fun hstate => exec_command_refused h rfl ?_, fun hopened hsync => ?_⟩
      · simp only [commandBody, seekLineBody, lineField_eq_some hn]
        exact if_pos hstate
      · have hexec : gives (seekReceiver n s) := by
          refine exec_command_ok h rfl ?_
          simp only [commandBody, seekLineBody, lineField_eq_some hn]
          exact if_neg (by simp [hopened, hsync])
        refine ⟨fun i hstate hcurrent => ?_, fun hstate => ?_, fun hstate => ?_⟩
        · refine Eq.mp (congrArg gives ?_) hexec
          simp only [seekReceiver, hstate]
          exact countRxError_discardAssembly .seek hcurrent
        · refine Eq.mp (congrArg gives ?_) hexec
          rcases hstate with hx | hx <;> simp only [seekReceiver, hx] <;> rfl
        · refine Eq.mp (congrArg gives ?_) hexec
          rcases hstate with hx | hx | hx <;> simp only [seekReceiver, hx]

/-! ## CANCEL_FRAME -/

/-- A change of one frame record leaves everything else alone. -/
theorem keepsBut_putFrame (n : LineNo) (i : Nat) (s : State) (r : FrameRecord) : KeepsBut n i s (s.putFrame i r) :=
  { toLineSide := lineSide_putFrame s i r, lines := fun _ _ => rfl, frames := fun _ hj => s.frame_putFrame_of_ne r hj
    freeCells := rfl, octets := rfl, tags := rfl, completion := rfl, replies := rfl }

/-- Settles O43: by the state of the frame that the tag names (Table 2.5). -/
theorem cancelFrameRows : Obligations.CancelFrameRows := by
  intro s tag low high h named
  refine ⟨fun hnone => exec_command_refused h rfl ?_, fun i r hi hr => ?_⟩
  · simp only [commandBody, cancelFrameBody]
    rw [show Table.get s.tags (word16 low high) = none from hnone]
  · intro gives
    have hline : tagLine s (word16 low high) = some r.line := by
      rw [tagLine, show Table.get s.tags (word16 low high) = some i from hi, Option.bind_some, hr, Option.map_some]
    have hexec : gives (failFrame .cancelled i s) := by
      refine exec_command_ok h rfl ?_
      simp only [commandBody, cancelFrameBody, hline, settleAt]
      rw [show Table.get s.tags (word16 low high) = some i from hi]
    refine ⟨fun hstate => ?_, fun _ => hexec, fun hstate => ⟨_, hexec, ?_⟩⟩
    · have hsame : failFrame .cancelled i s = s := by simp only [failFrame, hr, hstate]
      rwa [hsame] at hexec
    · have hfail : failFrame .cancelled i s = s.putFrame i (r.fixOutcome .cancelled) := by
        simp only [failFrame, hr, hstate]
      rw [hfail]
      exact ⟨keepsBut_putFrame .., rfl, s.frame_putFrame_self ..⟩

/-! ## SET_DEVICE and QUERY_DEVICE -/

theorem rangeField_eq_none {low high v : Nat} (h : v < low ∨ high < v) : rangeField low high v = none :=
  if_neg (by omega)

/-- Settles O46. -/
theorem deviceParametersAndCounters : Obligations.DeviceParametersAndCounters := by
  refine ⟨fun s tag low high reserve h => ?set, fun s tag flag h => ?query⟩
  case set =>
    intro floor
    refine ⟨fun hout => exec_command_refused h rfl ?_, fun hfloor hreserve => exec_command_ok h rfl ?_⟩
    · simp only [commandBody, setDeviceBody]
      rcases hout with hout | hout
      · rw [show rangeField 0 1024 (word16 low high) = none from rangeField_eq_none (.inr hout)]
      · rw [rangeField_eq_none (.inr hout)]
        split
        · contradiction
        · rfl
    · simp only [commandBody, setDeviceBody, rangeField_eq_some.mpr ⟨Nat.zero_le _, hreserve, rfl⟩,
        show rangeField 0 1024 (word16 low high) = some floor from rangeField_eq_some.mpr ⟨Nat.zero_le _, hfloor, rfl⟩]
  case query =>
    intro results
    have hresults : deviceOctets s = results := rfl
    refine ⟨by simp [results, octets16], fun hflag => exec_command_refused h rfl ?_, fun hflag => exec_command_ok h rfl ?_,
      fun hflag => exec_command_ok h rfl ?_⟩
    · simp only [commandBody, queryDeviceBody, clearFlag_eq_none hflag]
    · have hclear : clearFlag flag = some false := if_pos hflag
      simp only [commandBody, queryDeviceBody, hclear, Bool.false_eq_true, if_false, hresults]
    · have hclear : clearFlag flag = some true := by subst hflag; rfl
      simp only [commandBody, queryDeviceBody, hclear, if_true, hresults, clearDeviceCounters]

end Sys2Proof.Machine

end

section
-- The proofs below are checked one after another: in parallel each waits for the others with a thread of its own.
set_option Elab.async false

/-! PROOFS. Commands at a full reply queue (R174), the round robin and the payloads (R135 to R140), the serializer's order (R168) and
the link timers (R165 to R167). -/

namespace Sys2Proof.Machine

/-! ## The code of a command -/

/-- A payload holds a known command exactly when its first octet is the code of one (Table 9.2). -/
theorem commandOf_eq_some_iff {payload : List Byte} {c : CommandCode} :
    commandOf payload = some c ↔ payload.head? = some c.octet := by
  constructor
  · intro h
    obtain ⟨b, hhead, hfound⟩ := Option.bind_eq_some_iff.mp h
    have hnames := List.find?_some (show CommandCode.all.find? (fun c => c.octet = b) = some c from hfound)
    rw [hhead, ← of_decide_eq_true hnames]
  · intro h
    obtain ⟨rest, rfl⟩ := List.head?_eq_some_iff.mp h
    exact commandOf_octet_cons c rest

theorem commandOf_eq_none_iff {payload : List Byte} :
    commandOf payload = none ↔ ∀ c : CommandCode, payload.head? ≠ some c.octet := by
  simp only [Option.eq_none_iff_forall_ne_some, ne_eq, commandOf_eq_some_iff]

theorem isPlainReset_iff {payload : List Byte} :
    isPlainReset payload = true ↔ payload.head? = some CommandCode.resetDevice.octet ∧ payload.length = 2 := by
  simp [isPlainReset, commandOf_eq_some_iff]

theorem commandStalls_iff {payload : List Byte} {s : State} :
    commandStalls payload s = true ↔
      16 ≤ s.occupied ∧ ¬ (payload.head? = some CommandCode.resetDevice.octet ∧ payload.length = 2) := by
  rw [← isPlainReset_iff]
  simp [commandStalls, Config.replyPlaces]

/-! ## The event of a command, by its code -/

theorem commandAtHead_of_head {s : State} {payload : List Byte} (hrunning : s.rstLow = false)
    (hfresh : s.link.headStalled = false) (hhead : s.link.inbound.head? = some { kind := .command, payload := payload }) :
    s.commandAtHead = some payload := by
  obtain ⟨later, hinbound⟩ := List.head?_eq_some_iff.mp hhead
  simp [State.commandAtHead, hrunning, hfresh, hinbound]

/-- The row of a command takes it at the head, whatever its parameters. -/
theorem exec_row {s : State} {payload : List Byte} {c : CommandCode} (hhead : s.commandAtHead = some payload)
    (hcode : commandOf payload = some c) :
    exec c.row s = .next (serve false (takeCommand (runKnown c (commandBody c)) payload s)) := by
  have hevent : knownEvent c (commandBody c) s = serve false (takeCommand (runKnown c (commandBody c)) payload s) := by
    simp only [knownEvent, commandEvent, hhead, hcode, if_true]
  cases c <;> exact congrArg Host.Outcome.next hevent

theorem exec_unknownCommand {s : State} {payload : List Byte} (hhead : s.commandAtHead = some payload)
    (hcode : commandOf payload = none) :
    exec .unknownCommand s = .next (serve false (takeCommand runUnknown payload s)) := by
  refine congrArg Host.Outcome.next ?_
  simp only [commandEvent, hhead, hcode, if_true]

theorem takeCommand_of_stalls {run : List Byte → State → State} {payload : List Byte} {s : State}
    (h : commandStalls payload s = true) : takeCommand run payload s = stallHead s := if_pos h

theorem takeCommand_of_place {run : List Byte → State → State} {payload : List Byte} {s : State} (h : s.occupied < 16) :
    takeCommand run payload s = run payload s :=
  if_neg fun hstalls => absurd (commandStalls_iff.mp hstalls).1 (Nat.not_le.mpr h)

/-- A command whose parameters have not the exact length is refused (R172 check 2). -/
theorem runKnown_of_bad_length {c : CommandCode} (body : Byte → List Byte → State → State) {rest : List Byte} (s : State)
    (h : rest.length ≠ c.paramLength + 1) :
    runKnown c body (c.octet :: rest) s = endExecution (refuse c (rest.head?.getD 0) .badFormat s) := by
  cases rest with
  | nil => rfl
  | cons tag ps =>
    have hlength : ¬ ps.length = c.paramLength := fun hps => h (congrArg (· + 1) hps)
    simp only [runKnown, if_neg hlength, List.head?_cons, Option.getD_some]

/-- A new judgment is that of the command offered again (R174). -/
theorem rejudgeCommand_of_stalled {s : State} {payload : List Byte} (hstalled : s.link.headStalled = true)
    (hhead : s.link.inbound.head? = some { kind := .command, payload := payload }) :
    rejudgeCommand s = takeCommand runCommand payload (offerAgain s) := by
  have hstands : s.link.stalledHead = some { kind := .command, payload := payload } := by
    simp [HostLink.stalledHead, hstalled, hhead]
  simp only [rejudgeCommand, hstands]

theorem rejudgeCommand_of_not_stalled {s : State}
    (h : s.link.headStalled = false ∨ ∀ p, s.link.inbound.head? ≠ some { kind := .command, payload := p }) :
    rejudgeCommand s = s := by
  unfold rejudgeCommand
  split
  next payload hstands =>
    simp only [HostLink.stalledHead] at hstands
    split at hstands
    next hstalled =>
      rcases h with hfresh | hnone
      · exact absurd (hfresh.symm.trans hstalled) Bool.false_ne_true
      · exact absurd hstands (hnone payload)
    next => cases hstands
  next => rfl

/-- Settles O47. -/
theorem commandsStallOrAreRefused : Obligations.CommandsStallOrAreRefused := by
  refine ⟨fun c => by cases c <;> rfl, fun s payload hrunning hstalled hhead => ⟨fun c hc => ?known, fun hunknown => ?unknown,
    fun hfull hplain => ?full, fun _ => ⟨rfl, rfl, rfl⟩⟩, fun s => rejudgeCommand_of_not_stalled,
    fun s payload hrunning hfresh hhead hfull => ?stalls, fun s payload hrunning hfresh hhead hplace => ?refused⟩
  case known =>
    have hcode := commandOf_eq_some_iff.mpr hc
    rw [exec_row (s := s.offered) (commandAtHead_of_head hrunning rfl hhead) hcode, rejudgeCommand_of_stalled hstalled hhead]
    simp only [takeCommand, runCommand, hcode]
    rfl
  case unknown =>
    have hcode := commandOf_eq_none_iff.mpr hunknown
    rw [exec_unknownCommand (s := s.offered) (commandAtHead_of_head hrunning rfl hhead) hcode,
      rejudgeCommand_of_stalled hstalled hhead]
    simp only [takeCommand, runCommand, hcode]
    rfl
  case full =>
    have hstalls : commandStalls payload (offerAgain s) = true :=
      commandStalls_iff.mpr ⟨by rw [offerAgain_occupied, hfull], hplain⟩
    rw [rejudgeCommand_of_stalled hstalled hhead, takeCommand_of_stalls hstalls, stallHead_offerAgain hstalled]
  case stalls =>
    have hatHead := commandAtHead_of_head hrunning hfresh hhead
    refine ⟨fun c hc hplain => ?_, fun hunknown => ?_⟩
    · have hstalls : commandStalls payload s = true := by
        refine commandStalls_iff.mpr ⟨hfull.ge, fun ⟨hreset, hlength⟩ => hplain ⟨?_, hlength⟩⟩
        have hsame : some c = some CommandCode.resetDevice := by
          rw [← commandOf_eq_some_iff.mpr hc, commandOf_eq_some_iff.mpr hreset]
        exact Option.some.inj hsame
      have hexec := exec_row hatHead (commandOf_eq_some_iff.mpr hc)
      rw [takeCommand_of_stalls hstalls] at hexec
      exact hexec
    · have hstalls : commandStalls payload s = true :=
        commandStalls_iff.mpr ⟨hfull.ge, fun ⟨hreset, _⟩ => hunknown .resetDevice hreset⟩
      have hexec := exec_unknownCommand hatHead (commandOf_eq_none_iff.mpr hunknown)
      rw [takeCommand_of_stalls hstalls] at hexec
      exact hexec
  case refused =>
    have hatHead := commandAtHead_of_head hrunning hfresh hhead
    intro gives
    refine ⟨fun hnil => ?_, fun code rest hcons hcode => ?_, fun c rest hcons hlength => ?_⟩
    · subst hnil
      have hexec := exec_unknownCommand hatHead rfl
      rw [takeCommand_of_place hplace] at hexec
      exact hexec
    · subst hcons
      have hnone : commandOf (code :: rest) = none :=
        commandOf_eq_none_iff.mpr fun c hc => hcode c (Option.some.inj hc).symm
      have hexec := exec_unknownCommand hatHead hnone
      rw [takeCommand_of_place hplace] at hexec
      exact hexec
    · subst hcons
      have hexec := exec_row hatHead (commandOf_octet_cons c rest)
      rw [takeCommand_of_place hplace, runKnown_of_bad_length (commandBody c) s hlength] at hexec
      exact hexec

/-! ## The round robin -/

/-- The first element with a property, by a test for it. -/
theorem find?_eq_some_iff_first {α : Type} {test : α → Bool} {P : α → Prop} (h : ∀ a, test a = true ↔ P a) {as : List α}
    {a : α} : as.find? test = some a ↔ ∃ before behind, as = before ++ a :: behind ∧ P a ∧ ∀ b ∈ before, ¬ P b := by
  have hnot (b : α) : (!test b) = true ↔ ¬ P b := by rw [Bool.not_eq_true', ← h b, Bool.not_eq_true]
  simp only [List.find?_eq_some_iff_append, h, hnot]
  exact ⟨fun ⟨ha, before, behind, hsplit, hbefore⟩ => ⟨before, behind, hsplit, ha, hbefore⟩,
    fun ⟨before, behind, hsplit, ha, hbefore⟩ => ⟨ha, before, behind, hsplit, hbefore⟩⟩

/-- The search goes from line to line behind the pointed one (R137). -/
theorem find?_searchOrder {p n : LineNo} {d : Nat} {test : LineNo → Bool} (hlow : 1 ≤ d) (hhigh : d ≤ 8)
    (hn : n.val = (p.val + d) % 8) (htest : test n = true)
    (hbefore : ∀ e (m : LineNo), 1 ≤ e → e < d → m.val = (p.val + e) % 8 → test m = false) :
    (searchOrder p).find? test = some n := by
  have hindex : (⟨(p.val + (d - 1) + 1) % 8, Nat.mod_lt _ (by decide)⟩ : LineNo) = n :=
    Fin.ext (by simp only [hn]; congr 1; omega)
  have hfound : (List.range 8).find? (fun k => test ⟨(p.val + k + 1) % 8, Nat.mod_lt _ (by decide)⟩) = some (d - 1) := by
    refine List.find?_range_eq_some.mpr ⟨by rw [hindex, htest], List.mem_range.mpr (by omega), fun j hj => ?_⟩
    rw [Bool.not_eq_true']
    exact hbefore (j + 1) _ (by omega) (by omega) (by simp only [Nat.add_assoc])
  rw [searchOrder, List.find?_map]
  exact (congrArg (Option.map _) hfound).trans (congrArg some hindex)

/-- Entry by entry, the octets of a list. -/
theorem eq_of_mem_zip_map {α β : Type} {f : α → β} {as : List α} {a : α} {b : β} (h : (a, b) ∈ as.zip (as.map f)) : b = f a := by
  induction as with
  | nil => simp at h
  | cons c as ih =>
    rcases List.mem_cons.mp h with heq | hrest
    · cases heq
      rfl
    · exact ih hrest

/-- Settles O49. -/
theorem roundRobinSegments : Obligations.RoundRobinSegments := by
  refine ⟨fun s q => ⟨fun older e newer hqueue hcarried holder => ?reply, fun n c => ?condition, fun _ _ _ _ => rfl,
    fun entries => ?done, rfl, rfl, rfl⟩, fun s q i offset length first last lossBefore resent r o hr ho => ?segment, rfl,
    fun s n => ?pointer, fun s hdata hturn => ?stays, fun s n d hnot hlow hhigh hn hdata hbefore => ?next,
    fun s n turn i r hline hpointer hr hcursor hsize => ?forms⟩
  case reply =>
    have hfound : s.replies.find? (fun e => e.carriedBy = some q) = some e := by
      refine List.find?_eq_some_iff_append.mpr ⟨decide_eq_true hcarried, older, newer, hqueue, fun o ho => ?_⟩
      simp [holder o ho]
    simp only [payloadOf, hfound, Option.elim_some, replyOctets]
  case condition => simp [payloadOf, Conditions.bits, bitOf]
  case done =>
    refine ⟨entries.map (entryOctets s), by simp only [payloadOf, List.flatMap_def], List.length_map _, ?_⟩
    intro e part hmem
    obtain rfl := eq_of_mem_zip_map hmem
    refine ⟨fun i r o he hr ho => ?_, fun k j he hj => ?_⟩
    · subst he
      simp [entryOctets, hr, frameEntryOctets, outcomeCode, ho]
      rfl
    · subst he
      simp [entryOctets, hj, rejectEntryOctets, octets16]
      exact ⟨rfl, rfl⟩
  case segment =>
    simp [payloadOf, hr, segmentOctets, segmentFlagBits, bitOf, outcomeCode, ho]
  case pointer =>
    intro waits
    have hwaits (j : Nat) : (s.frame j).any (fun r => decide (r.state = .queued) || decide (r.state = .delivering)) = true ↔
        waits j := by
      cases h : s.frame j <;> simp [waits, h]
    have htest : deliveryPointer s n = (s.line n).rx.queue.find?
        (fun j => (s.frame j).any (fun r => decide (r.state = .queued) || decide (r.state = .delivering))) := by
      refine congrArg (fun test => (s.line n).rx.queue.find? test) (funext fun j => ?_)
      cases s.frame j <;> rfl
    rw [htest]
    refine ⟨fun i => find?_eq_some_iff_first hwaits, ?_⟩
    simp only [List.find?_eq_none, hwaits]
  case stays => simp only [chooseLine, if_pos (And.intro hdata hturn)]
  case next =>
    have hfound := find?_searchOrder (test := fun m => (deliveryPointer s m).isSome) hlow hhigh hn hdata
      (fun e m he1 hed hm => by simp [hbefore e m he1 hed hm])
    simp only [chooseLine, if_neg hnot, hfound, Option.map_some]
  case forms =>
    intro len
    have hlen : 1 ≤ len := by
      simp only [len]
      omega
    have hforms : formSegment s = some (formSegmentOf n turn i r s) := by
      simp only [formSegment, hline, hpointer, hr, Option.map_some]
    refine ⟨_, hforms, hlen, ?_, fun j hj => ?_, rfl, rfl, rfl, rfl, rfl, rfl, rfl, rfl, rfl, rfl⟩
    · refine (s.frame_putFrame_self i _).trans ?_
      simp only [decide_eq_true_eq]
      rfl
    · exact s.frame_putFrame_of_ne _ hj

/-! ## The serializer -/

/-- A payload reads nothing of the link (R140). -/
theorem payloadOf_modLink (s : State) (f : HostLink → HostLink) (k : Retained) : payloadOf (s.modLink f) k = payloadOf s k := by
  unfold payloadOf
  cases k.content <;> rfl

/-- Settles O50: the choices of the free serializer in the order of R168. -/
theorem serializerOrder : Obligations.SerializerOrder := by
  refine ⟨fun s hrunning hsending => by simp [exec, execSendingEnd, hrunning, hsending, State.modLink], fun tk s => ?_⟩
  intro h begins
  refine ⟨fun hbusy => if_pos hbusy, fun hfree => ⟨fun hitem => ?welcome, fun hitem => ?resync, fun hitem hdown => ?down,
    fun hitem hup => ?up⟩⟩
  case welcome =>
    refine (serve_welcome tk hfree hitem).trans ?_
    simp only [beginWelcome]
    rfl
  case resync =>
    simp only [begins, serve, show s.link.sending = none from hfree, show s.link.item = .resync from hitem]
    rfl
  case down =>
    simp only [serve, show s.link.sending = none from hfree, show s.link.item = .none from hitem,
      show s.link.state = .down from hdown]
    rfl
  case up =>
    have hchoose : serve tk s = chooseUp tk s := by
      simp only [serve, show s.link.sending = none from hfree, show s.link.item = .none from hitem,
        show s.link.state = .up from hup]
      rfl
    refine ⟨fun hnak => hchoose.trans ?nak, fun c k hnak hcursor hk => hchoose.trans ?resend, fun hnak hcursor => ?new⟩
    case nak => exact if_pos hnak
    case resend =>
      simp only [chooseUp, show s.link.nakPending = false from hnak, show s.link.cursor = some c from hcursor,
        show s.link.retained c = some k from hk]
      rfl
    case new =>
      intro may
      have hnew : serve tk s = sendNewOrAck tk s := by
        rw [hchoose]
        simp only [chooseUp, show s.link.nakPending = false from hnak, show s.link.cursor = none from hcursor]
        rfl
      have hmay : s.link.mayAsk = true ↔ may := by simp [HostLink.mayAsk, may, HostLink.withinGrant, Config.retainSlots, h]
      refine ⟨fun c t hm hforms => hnew.trans ?sent, fun hnone => ?_⟩
      case sent =>
        have hlink : t.link = h := (formRecord_keeps hforms).2
        simp only [sendNewOrAck, if_pos (hmay.mpr hm), hforms, sendNew, payloadOf_modLink]
        simp only [beginSending, State.modLink, hlink, startTimer, List.isEmpty_iff, HostLink.room, Config.inboundSlots]
      · have hack : sendNewOrAck tk s = sendAckIfDue s := by
          rcases hnone with hnot | hnone
          · exact if_neg fun hm => hnot (hmay.mp hm)
          · simp only [sendNewOrAck, hnone, ite_self]
        have hdue : s.link.ackDue = true ↔ h.ackOwed = true ∨ 8 - h.inbound.length ≠ h.roomLastSent := by
          simp only [HostLink.ackDue, Bool.or_eq_true, decide_eq_true_eq]
          rfl
        refine ⟨fun hd => hnew.trans (hack.trans (if_pos (hdue.mpr hd))), fun howed hroom => ?_⟩
        refine hnew.trans (hack.trans (if_neg fun hd => ?_))
        rcases hdue.mp hd with hd | hd
        · exact Bool.false_ne_true (howed.symm.trans hd)
        · exact hd hroom

/-- Settles O55. -/
theorem linkTimerExpiries : Obligations.LinkTimerExpiries := by
  intro s hrunning hup down
  refine ⟨fun htimer hretry => ?_, fun htimer hretry => ?_, fun htimer => ?_⟩
  · have hle : s.link.retryCount + 1 ≤ s.link.retryLimit := hretry
    simp [exec, execRetransmissionTimerExpiry, hrunning, hup, htimer, HostLink.retransExpiry, State.modLink, hle,
      startTimer, HostLink.retransMs]
  · have hgt : ¬ s.link.retryCount + 1 ≤ s.link.retryLimit := by omega
    simp [exec, execRetransmissionTimerExpiry, hrunning, hup, htimer, HostLink.retransExpiry, State.modLink, hgt,
      HostLink.goDown, down]
  · simp [exec, execSilenceTimerExpiry, hrunning, hup, htimer, State.modLink, HostLink.goDown, down]

end Sys2Proof.Machine

end

section
-- The proofs below are checked one after another: in parallel each waits for the others with a thread of its own.
set_option Elab.async false

/-! PROOFS. Reception on HRXD: the judgment of a record's octets, the search among octets that came before, and the rows of the
checked records (8.2). -/

namespace Sys2Proof.Machine

/-! ## Fields of two octets -/

theorem word16_octets16 {v : Nat} (h : v < 65536) : word16 (octet v) (octet (v / 256)) = v := by
  simp only [word16, octet, BitVec.toNat_ofNat]
  omega

theorem octets16_word16 (low high : Byte) : octets16 (word16 low high) = [low, high] := by
  have hlow := low.isLt
  have hhigh := high.isLt
  simp only [octets16, octet, word16]
  congr 1
  · apply BitVec.eq_of_toNat_eq
    simp only [BitVec.toNat_ofNat]
    omega
  · congr 1
    apply BitVec.eq_of_toNat_eq
    simp only [BitVec.toNat_ofNat]
    omega

/-! ## The verdict -/

theorem HostType.ofCode_code (t : HostType) : HostType.ofCode t.code = some t := by cases t <;> rfl

theorem HostType.ofCode_eq_some_iff {b : Byte} {t : HostType} : HostType.ofCode b = some t ↔ b = t.code := by
  refine ⟨fun h => ?_, fun h => h ▸ t.ofCode_code⟩
  unfold HostType.ofCode at h
  split_ifs at h with h1 h2 h3 h4 h5 <;> (obtain rfl := Option.some.inj h; assumption)

/-- With fewer octets than the header has a record has not ended. -/
theorem recordVerdict_of_short {octets : List Byte} (h : octets.length < 6) : recordVerdict octets = .incomplete := by
  match octets, h with
  | [], _ | [_], _ | [_, _], _ | [_, _, _], _ | [_, _, _, _], _ | [_, _, _, _, _], _ => rfl

/-- The three steps of R152 with the header there, by the payload length and the octets behind the header. -/
theorem recordVerdict_cons (type seq ack room low high : Byte) (rest : List Byte) :
    let verdict := recordVerdict (type :: seq :: ack :: room :: low :: high :: rest)
    let crc := octets16 (recordCrc (type :: seq :: ack :: room :: low :: high :: rest.take (word16 low high))).toNat
    (256 < word16 low high → rest = [] → verdict = .failed) ∧
    (256 < word16 low high → rest ≠ [] → verdict = .beyond) ∧
    (word16 low high ≤ 256 → rest.length < word16 low high + 2 → verdict = .incomplete) ∧
    (word16 low high ≤ 256 → word16 low high + 2 < rest.length → verdict = .beyond) ∧
    (word16 low high ≤ 256 → rest.length = word16 low high + 2 → rest.drop (word16 low high) ≠ crc → verdict = .failed) ∧
    (word16 low high ≤ 256 → rest.length = word16 low high + 2 → rest.drop (word16 low high) = crc →
      (HostType.ofCode type = none → verdict = .failed) ∧
      ∀ t, HostType.ofCode type = some t →
        verdict = .checked t { seq := seq, ack := ack, room := room, payload := rest.take (word16 low high) }) := by
  intro verdict crc
  have hlong (h : word16 low high ≤ 256) : ¬ Config.maxPayload < word16 low high := Nat.not_lt.mpr h
  have hcovered (h : rest.length = word16 low high + 2) :
      octets16 (recordCrc (coveredOctets type seq ack room (rest.take (word16 low high)))).toNat = crc := by
    have htake : (rest.take (word16 low high)).length = word16 low high := by simp [h]
    simp only [coveredOctets, htake, octets16_word16]
    rfl
  refine ⟨fun h hrest => ?_, fun h hrest => ?_, fun h hrest => ?_, fun h hrest => ?_, fun h hrest hcrc => ?_,
    fun h hrest hcrc => ⟨fun hcode => ?_, fun t hcode => ?_⟩⟩
  · exact (if_pos h).trans (if_pos hrest)
  · exact (if_pos h).trans (if_neg hrest)
  · exact (if_neg (hlong h)).trans ((if_neg (by omega)).trans (if_pos hrest))
  · exact (if_neg (hlong h)).trans ((if_neg (by omega)).trans (if_neg (by omega)))
  · refine (if_neg (hlong h)).trans ((if_pos hrest).trans (if_neg ?_))
    rw [hcovered hrest]
    exact Ne.symm hcrc
  · refine (if_neg (hlong h)).trans ((if_pos hrest).trans ((if_pos ((hcovered hrest).trans hcrc.symm)).trans ?_))
    simp only [hcode]
  · refine (if_neg (hlong h)).trans ((if_pos hrest).trans ((if_pos ((hcovered hrest).trans hcrc.symm)).trans ?_))
    simp only [hcode]

/-- The octets of a host record: the header with the payload length, then the payload and the record CRC. -/
theorem hostOctets_eq (t : HostType) (r : HostRecord) :
    hostOctets t r = t.code :: r.seq :: r.ack :: r.room :: octet r.payload.length :: octet (r.payload.length / 256) ::
      (r.payload ++ octets16 (recordCrc (coveredOctets t.code r.seq r.ack r.room r.payload)).toNat) := by
  simp [hostOctets, recordOctets, coveredOctets, octets16]

/-- Settles O56: the octets of a record are judged complete at their end, and not before. -/
theorem hostRecordRoundTrip : Obligations.HostRecordRoundTrip := by
  refine ⟨fun t r => by cases t <;> rfl, fun t r hpayload => ?_⟩
  have hlength : (hostOctets t r).length = r.payload.length + 8 := by
    simp [hostOctets_eq, octets16]
  have hword : word16 (octet r.payload.length) (octet (r.payload.length / 256)) = r.payload.length :=
    word16_octets16 (by omega)
  refine ⟨?checked, hlength, fun front hfront hproper => ?front⟩
  case checked =>
    rw [hostOctets_eq]
    obtain ⟨-, -, -, -, -, hends⟩ := recordVerdict_cons t.code r.seq r.ack r.room (octet r.payload.length)
      (octet (r.payload.length / 256))
      (r.payload ++ octets16 (recordCrc (coveredOctets t.code r.seq r.ack r.room r.payload)).toNat)
    simp only [hword, List.take_left, List.drop_left] at hends
    exact (hends hpayload (by simp [octets16]) (by simp [coveredOctets, octets16])).2 t t.ofCode_code
  case front =>
    have hshorter : front.length < (hostOctets t r).length :=
      lt_of_le_of_ne hfront.length_le fun h => hproper (hfront.eq_of_length h)
    rcases Nat.lt_or_ge front.length 6 with hshort | hheader
    · exact recordVerdict_of_short hshort
    · obtain ⟨rest, hrest⟩ : ∃ rest, front = t.code :: r.seq :: r.ack :: r.room :: octet r.payload.length ::
          octet (r.payload.length / 256) :: rest := by
        rw [hostOctets_eq] at hfront
        match front, hheader with
        | a :: b :: c :: d :: e :: f :: rest, _ =>
          simp only [List.cons_prefix_cons] at hfront
          obtain ⟨rfl, rfl, rfl, rfl, rfl, rfl, -⟩ := hfront
          exact ⟨rest, rfl⟩
      subst hrest
      obtain ⟨-, -, hincomplete, -⟩ := recordVerdict_cons t.code r.seq r.ack r.room (octet r.payload.length)
        (octet (r.payload.length / 256)) rest
      rw [hword] at hincomplete
      refine hincomplete hpayload ?_
      simp only [List.length_cons] at hshorter
      omega

/-! ## The search for a start octet -/

theorem afterStart_eq_none {octets : List Byte} (h : startOctet ∉ octets) : afterStart octets = none := by
  induction octets with
  | nil => rfl
  | cons b octets ih =>
    obtain ⟨hb, hrest⟩ := List.ne_and_not_mem_of_not_mem_cons h
    exact (if_neg hb.symm).trans (ih hrest)

theorem afterStart_append {before : List Byte} (rest : List Byte) (h : startOctet ∉ before) :
    afterStart (before ++ startOctet :: rest) = some rest := by
  induction before with
  | nil => exact if_pos rfl
  | cons b before ih =>
    obtain ⟨hb, hbefore⟩ := List.ne_and_not_mem_of_not_mem_cons h
    exact (if_neg hb.symm).trans (ih hbefore)

/-- The search that resumes with some octets ends as searchAgain says (R152). -/
theorem searchAgain_of_resumesWith {octets : List Byte} {x : Reception} (h : ResumesWith octets x) : searchAgain octets = x := by
  rcases h with ⟨hnone, rfl⟩ | ⟨before, rest, rfl, hbefore, rfl⟩
  · simp only [searchAgain, afterStart_eq_none hnone]
  · have hfound : afterStart (before ++ 0xC3#8 :: rest) = some rest := afterStart_append rest hbefore
    simp only [searchAgain, hfound]

/-! ## Records among octets that are already there -/

/-- The octets already there begin the record, or the record ends within them (R152). -/
theorem Reception.beyond_reading (collected octets : List Byte) :
    (collected <+: octets → Reception.beyond (.reading collected) octets = some []) ∧
      (∀ rest, collected = octets ++ rest → Reception.beyond (.reading collected) octets = some rest) ∧
      (¬ collected <+: octets → ¬ octets <+: collected → Reception.beyond (.reading collected) octets = none) := by
  refine ⟨fun h => by simp [Reception.beyond, h], fun rest hrest => ?_, fun h h' => by simp [Reception.beyond, h, h']⟩
  subst hrest
  by_cases h : octets ++ rest <+: octets
  · have hnil : rest = [] := by
      have hlength := h.length_le
      simpa using hlength
    simp [Reception.beyond, hnil]
  · simp [Reception.beyond, h]

/-- The event of a record that ends in error (R152). -/
theorem exec_receiveRecordError {octets : List Byte} {bad : Bool} {s : State} {x : Reception} (hrunning : s.rstLow = false)
    (h : s.link.reception.afterError octets bad = some x) :
    exec (.receiveRecordError octets bad) s =
      .next (serve false { s with link := { s.link with reception := x, crcErrors := satInc s.link.crcErrors } }) := by
  simp [exec, execReceiveRecordError, hrunning, h, State.modLink]

theorem exec_receiveRecordError_none {octets : List Byte} {bad : Bool} {s : State}
    (h : s.link.reception.afterError octets bad = none) : exec (.receiveRecordError octets bad) s = .next s := by
  simp [exec, execReceiveRecordError, h]

/-- Reception after a record that has ended in error, by its verdict (R152). -/
theorem Reception.afterError_failed {octets : List Byte} (x : Reception) (h : recordVerdict octets = .failed) :
    x.afterError octets false = (x.beyond octets).map (fun rest => searchAgain (octets ++ rest)) := by
  simp [Reception.afterError, recordErrorWf, h]

theorem Reception.afterError_incomplete {octets : List Byte} (x : Reception) (h : recordVerdict octets = .incomplete) :
    x.afterError octets true = if x.endsBehind octets then some .searching else none := by
  simp [Reception.afterError, recordErrorWf, h]

/-! ## The rows of the checked records -/

/-- What a checked record of each type does (8.3 to 8.7). -/
def HostType.take (r : HostRecord) : HostType → State → State
  | .hello => takeHello r
  | .ack => byLinkState (takeAckFields r)
  | .nak => byLinkState (takeNak r)
  | .command => byLinkState (fun t => (takeAckFields r t).modLink (fun h => h.judgeSequenced .command r))
  | .txSegment => byLinkState (fun t => (takeAckFields r t).modLink (fun h => h.judgeSequenced .txSegment r))

theorem exec_row_of_checked (t : HostType) (r : HostRecord) (s : State) :
    exec (t.row r) s = .next (takeChecked t r (t.take r) s) := by
  cases t <;> rfl

/-- A checked record that can come now is taken, and the octets beyond it are searched (R152). -/
theorem exec_checked {t : HostType} {r : HostRecord} {s : State} {rest : List Byte} (hrunning : s.rstLow = false)
    (hpayload : r.payload.length ≤ 256) (h : s.link.reception.beyond (hostOctets t r) = some rest) :
    exec (t.row r) s = .next (resumeSearch rest (serve false (t.take r
      { s with link := { s.link with reception := .searching } }))) := by
  have hwf : r.wf = true := decide_eq_true hpayload
  have hbeyond : s.link.reception.beyondChecked t r = some rest := (if_pos hwf).trans h
  rw [exec_row_of_checked, takeChecked, if_neg (by simp [hrunning]), hbeyond]
  rfl

/-- In searching any checked record is taken, and nothing lies beyond it. -/
theorem exec_checked_searching {t : HostType} {r : HostRecord} {s : State} (hrunning : s.rstLow = false)
    (hsearching : s.link.reception = .searching) (hpayload : r.payload.length ≤ 256) :
    exec (t.row r) s = .next (serve false (t.take r s)) := by
  have hsame : { s with link := { s.link with reception := .searching } } = s := by rw [← hsearching]
  have hexec := exec_checked (t := t) (rest := []) hrunning hpayload (by rw [hsearching]; rfl)
  rwa [hsame] at hexec

/-- Settles O51: by the verdict, then by the octets that are already there. -/
theorem recordErrorEffect : Obligations.RecordErrorEffect := by
  refine ⟨fun octets => recordVerdict_of_short, fun type seq ack room low high rest => ?verdict,
    fun octets s hrunning hsearching => ?searching, fun octets collected s hrunning hreading => ?reading,
    fun octets s => ⟨fun h => exec_receiveRecordError_none ?_, fun h => exec_receiveRecordError_none ?_⟩,
    fun t r collected s hrunning hreading hpayload => ?checked⟩
  case verdict =>
    intro length verdict crc
    obtain ⟨hlong, hbehind, hshort, hbeyond, hcrc, hends⟩ := recordVerdict_cons type seq ack room low high rest
    refine ⟨hlong, hbehind, hshort, hbeyond, hcrc, fun h hrest hsame => ?_⟩
    obtain ⟨hunknown, hknown⟩ := hends h hrest hsame
    refine ⟨fun hcode => hunknown ?_, fun t hcode => hknown t (HostType.ofCode_eq_some_iff.mpr hcode)⟩
    exact Option.eq_none_iff_forall_ne_some.mpr fun t ht => hcode t (HostType.ofCode_eq_some_iff.mp ht)
  case searching =>
    intro gives
    have hfailed (h : recordVerdict octets = .failed) {x : Reception} (hx : ResumesWith octets x) : gives x := by
      have hbad : decide (recordVerdict octets = .incomplete) = false := by simp [h]
      refine exec_receiveRecordError hrunning ?_
      rw [hbad, hsearching, Reception.afterError_failed _ h]
      simp only [Reception.beyond, Option.map_some, List.append_nil, searchAgain_of_resumesWith hx]
    refine ⟨fun h => exec_receiveRecordError hrunning ?_, fun h hnone => hfailed h (.inl ⟨hnone, rfl⟩),
      fun before rest h hsplit hbefore => hfailed h (.inr ⟨before, rest, hsplit, hbefore, rfl⟩)⟩
    have hbad : decide (recordVerdict octets = .incomplete) = true := decide_eq_true h
    rw [hbad, hsearching, Reception.afterError_incomplete _ h]
    rfl
  case reading =>
    intro gives nothing
    obtain ⟨hprefix, hwithin, hneither⟩ := Reception.beyond_reading collected octets
    refine ⟨fun h hcollected => exec_receiveRecordError hrunning ?_, fun h hcollected => exec_receiveRecordError_none ?_,
      fun x h hcollected hx => exec_receiveRecordError hrunning ?_, fun x h hcollected hx => exec_receiveRecordError hrunning ?_,
      fun h hcollected hoctets => exec_receiveRecordError_none ?_⟩
    · rw [hreading, Reception.afterError_incomplete _ h]
      simp [Reception.endsBehind, hcollected]
    · rw [hreading, Reception.afterError_incomplete _ h]
      simp [Reception.endsBehind, hcollected]
    · rw [hreading, Reception.afterError_failed _ h, hprefix hcollected, Option.map_some, List.append_nil,
        searchAgain_of_resumesWith hx]
    · obtain ⟨rest, hrest⟩ := hcollected
      rw [hreading, Reception.afterError_failed _ h, hwithin rest hrest.symm, Option.map_some, hrest,
        searchAgain_of_resumesWith hx]
    · rw [hreading, Reception.afterError_failed _ h, hneither hcollected hoctets, Option.map_none]
  · simp [Reception.afterError, recordErrorWf, h]
  · simp [Reception.afterError, recordErrorWf, h]
  case checked =>
    intro searching
    obtain ⟨hprefix, hwithin, hneither⟩ := Reception.beyond_reading collected (hostOctets t r)
    rw [← hreading] at hprefix hwithin hneither
    have hsearching : exec (t.row r) searching = .next (serve false (t.take r searching)) :=
      exec_checked_searching hrunning rfl hpayload
    refine ⟨fun h => ?_, fun rest hrest hnone => ?_, fun before rest hrest hbefore => ⟨_, hsearching, ?_⟩, fun h h' => ?_⟩
    · rw [exec_checked hrunning hpayload (hprefix h), hsearching]
      rfl
    · rw [exec_checked hrunning hpayload (hwithin rest hrest), hsearching]
      simp only [resumeSearch, afterStart_eq_none hnone, searching]
    · rw [List.append_assoc] at hrest
      rw [exec_checked hrunning hpayload (hwithin _ hrest)]
      have hfound : afterStart (before ++ 0xC3#8 :: rest) = some rest := afterStart_append rest hbefore
      simp only [resumeSearch, hfound, State.modLink, searching]
    · have hnone : s.link.reception.beyondChecked t r = none := by
        simp only [Reception.beyondChecked, hneither h h', ite_self]
      rw [exec_row_of_checked]
      simp only [takeChecked, hnone, ite_self]

end Sys2Proof.Machine

end

section
-- The proofs below are checked one after another: in parallel each waits for the others with a thread of its own.
set_option Elab.async false

/-! PROOFS. HELLO, the host acknowledgements and the host sequenced records (8.4 to 8.7), with the rewind and the release of the
sources (7.7, 7.8). -/

namespace Sys2Proof.Machine

/-! ## The rewind -/

/-- t differs from s at most in the lines, the reply queue, the reported marks and the frame records. -/
structure RewindSide (s t : State) : Prop extends UpstreamSide s t where
  link : t.link = s.link
  pointer : t.pointer = s.pointer
  turnCount : t.turnCount = s.turnCount

theorem RewindSide.refl (s : State) : RewindSide s s := ⟨.refl s, rfl, rfl, rfl⟩

theorem RewindSide.trans {s t u : State} (h : RewindSide s t) (k : RewindSide t u) : RewindSide s u :=
  ⟨h.toUpstreamSide.trans k.toUpstreamSide, k.link.trans h.link, k.pointer.trans h.pointer, k.turnCount.trans h.turnCount⟩

theorem rewindSide_markEntries (mark : Bool) (es : List EntryRef) (s : State) : RewindSide s (es.foldl (markEntry mark) s) := by
  rw [markEntries_eq]
  exact ⟨⟨rfl, rfl, rfl, rfl, rfl, rfl, rfl, rfl, rfl⟩, rfl, rfl, rfl⟩

theorem rewindSide_modLine (s : State) (n : LineNo) (f : Line → Line) : RewindSide s (s.modLine n f) :=
  ⟨upstreamSide_modLine s n f, rfl, rfl, rfl⟩

theorem rewindSide_rewindRecord (s : State) (k : Retained) : RewindSide s (rewindRecord s k) := by
  unfold rewindRecord
  split
  · exact ⟨⟨rfl, rfl, rfl, rfl, rfl, rfl, rfl, rfl, rfl⟩, rfl, rfl, rfl⟩
  · exact rewindSide_modLine ..
  · exact rewindSide_markEntries ..
  · exact rewindSide_modLine ..
  · exact .refl s

theorem rewindSide_rewindRecords (ks : List Retained) (s : State) : RewindSide s (ks.foldl rewindRecord s) := by
  induction ks generalizing s with
  | nil => exact .refl s
  | cons k ks ih => exact (rewindSide_rewindRecord s k).trans (ih _)

/-- The rewind of a receive frame, by its state (R145). -/
theorem FrameRecord.rewind_eq (r : FrameRecord) :
    r.rewind = if r.state = .delivering ∨ r.state = .sent then { r with state := .queued, cursor := 0, resent := true } else r := by
  unfold FrameRecord.rewind
  cases r.state <;> simp

theorem frame_rewindReceive (s : State) (i : Nat) : (rewindReceive s).frame i = (s.frame i).map FrameRecord.rewind :=
  Table.get_map ..

/-! ## HELLO -/

/-- A HELLO in range (R155, Table 10.4). -/
theorem helloParams_of_range {r : HostRecord} {t k q size : Byte} (hpayload : r.payload = [t, k, q, size]) (ht : 1 ≤ t.toNat)
    (hk : 1 ≤ k.toNat) (hk' : k.toNat ≤ 15) (hsize : 16 ≤ size.toNat) (hsize' : size.toNat ≤ 240) (hroom : r.room.toNat ≤ 8) :
    helloParams r = some { retransTimeout := t.toNat, retryLimit := k.toNat, silenceTimeout := q.toNat
                           segmentSize := size.toNat } := by
  have ht' : t.toNat ≤ 255 := Nat.le_of_lt_succ t.isLt
  simp only [helloParams, hpayload, rangeField_eq_some.mpr ⟨ht, ht', rfl⟩, rangeField_eq_some.mpr ⟨hk, hk', rfl⟩,
    rangeField_eq_some.mpr ⟨hsize, hsize', rfl⟩, rangeField_eq_some.mpr ⟨Nat.zero_le _, hroom, rfl⟩]

/-- A HELLO out of range (R155, R188). -/
theorem helloParams_eq_none {r : HostRecord} (h : r.payload.length ≠ 4 ∨ 8 < r.room.toNat ∨
    ∃ t k q size : Byte, r.payload = [t, k, q, size] ∧
      (t.toNat = 0 ∨ k.toNat = 0 ∨ 15 < k.toNat ∨ size.toNat < 16 ∨ 240 < size.toNat)) : helloParams r = none := by
  refine Option.eq_none_iff_forall_ne_some.mpr fun p hp => ?_
  unfold helloParams at hp
  split at hp
  next t k q size hpayload =>
    split at hp
    next t1 k1 s1 room ht hk hsize hroom =>
      obtain ⟨ht1, -, -⟩ := rangeField_eq_some.mp ht
      obtain ⟨hk1, hk2, -⟩ := rangeField_eq_some.mp hk
      obtain ⟨hs1, hs2, -⟩ := rangeField_eq_some.mp hsize
      obtain ⟨-, hr2, -⟩ := rangeField_eq_some.mp hroom
      rcases h with hlength | hroom' | ⟨t', k', q', size', hpayload', hout⟩
      · simp [hpayload] at hlength
      · omega
      · rw [hpayload] at hpayload'
        simp only [List.cons.injEq] at hpayload'
        obtain ⟨rfl, rfl, rfl, rfl, -⟩ := hpayload'
        omega
    next => cases hp
  next => cases hp

/-- Settles O52: the link reset by its steps, the rewind record by record. -/
theorem helloEffect : Obligations.HelloEffect := by
  refine ⟨fun s q => ⟨rfl, fun entries => ?done, fun n c => ?condition, fun n a b c => rfl,
    fun i offset length first last lossBefore resent => rfl⟩, fun r s hrunning hsearching hpayload =>
      ⟨fun t k q size hfields ht hk hk' hsize hsize' hroom => ?inRange, fun hout => ?outOfRange⟩⟩
  case done =>
    intro t
    exact ⟨frame_markEntries false entries s, slot_markEntries false entries s, markEntries_eq false entries s⟩
  case condition => rfl
  case inRange =>
    have hside := rewindSide_rewindRecords s.link.retain s
    have hexec : exec (.hello r) s = .next (serve false (takeHello r s)) :=
      exec_checked_searching (t := .hello) hrunning hsearching hpayload
    have htake : takeHello r s = linkReset
        { retransTimeout := t.toNat, retryLimit := k.toNat, silenceTimeout := q.toNat, segmentSize := size.toNat } r.room s := by
      simp only [takeHello, helloParams_of_range hfields ht hk hk' hsize hsize' hroom]
    rw [htake] at hexec
    refine ⟨_, hexec, fun i => ?frame, rfl, rfl, rfl, hside.completion, hside.tags, hside.freeCells, hside.octets,
      hside.pointer, hside.turnCount, hside.reserveFloor, hside.recordReserve, hside.straySegments, hside.rstLow,
      hside.pending, ?link⟩
    case frame =>
      refine (frame_rewindReceive _ i).trans (congrArg (fun f => Option.map f _) (funext fun f => ?_))
      exact f.rewind_eq
    case link =>
      have hq : (q.toNat = 0) = (q = 0#8) := propext ⟨fun h => BitVec.eq_of_toNat_eq h, fun h => h ▸ rfl⟩
      have hlink : (rewindReceive (s.link.retain.foldl rewindRecord s)).link = s.link := hside.link
      simp only [linkReset, State.modLink, hlink, HostLink.reset, startTimer, hq, Bool.false_eq_true, if_false]
  case outOfRange =>
    have hexec : exec (.hello r) s = .next (serve false (takeHello r s)) :=
      exec_checked_searching (t := .hello) hrunning hsearching hpayload
    refine hexec.trans (congrArg (fun u => Host.Outcome.next (serve false u)) ?_)
    simp only [takeHello, helloParams_eq_none hout, owingResync, State.modLink, HostLink.restartSilence]
    by_cases hup : s.link.state = .up
    · by_cases htimeout : s.link.silenceTimeout = 0
      · simp only [if_pos hup, if_pos htimeout, if_neg fun h : s.link.state = .up ∧ s.link.silenceTimeout ≠ 0 => h.2 htimeout]
      · simp only [if_pos hup, if_neg htimeout, if_pos (And.intro hup htimeout), startTimer, HostLink.silenceMs,
          Bool.false_eq_true, if_false]
    · simp only [if_neg hup, if_neg fun h : s.link.state = .up ∧ s.link.silenceTimeout ≠ 0 => hup h.1]

/-! ## A checked record in UP -/

/-- The silence timer restarts at a checked record in UP (R166). -/
theorem modLink_restartSilence (s : State) : s.modLink HostLink.restartSilence = s.heard := by
  by_cases h : s.link.silenceTimeout = 0
  · simp only [State.modLink, HostLink.restartSilence, State.heard, if_pos h]
  · simp only [State.modLink, HostLink.restartSilence, State.heard, if_neg h, startTimer, HostLink.silenceMs,
      Bool.false_eq_true, if_false]

theorem HostLink.ackValue_eq_some_iff {h : HostLink} {a : Byte} {v : Seq} : h.ackValue a = some v ↔ h.InRange a v := by
  have hvalue : (a.setWidth 6 : Seq).toNat = a.toNat % 64 := by simp [BitVec.toNat_setWidth]
  have hv := v.isLt
  simp only [HostLink.ackValue, HostLink.InRange]
  constructor
  · intro hack
    split at hack
    next hin =>
      obtain ⟨hlt, hle⟩ := hin
      obtain rfl := Option.some.inj hack
      exact ⟨by omega, hle⟩
    next => cases hack
  · rintro ⟨heq, hle⟩
    have hsame : (a.setWidth 6 : Seq) = v := BitVec.eq_of_toNat_eq (by omega)
    rw [hsame, if_pos ⟨by omega, hle⟩]

/-- An acknowledgement in range, as the statements spell it (R161). -/
theorem takeAck_eq (a : Seq) (room : Byte) (s : State) : takeAck a room s = s.acknowledged a room.toNat := by
  have hlink : s.link.acknowledge a room = { s.link with
      retain := if a = s.link.vA then s.link.retain else s.link.retain.drop (a - s.link.vA).toNat
      vA := a
      retryCount := if a = s.link.vA then s.link.retryCount else 0
      cursor := if a = s.link.vA then s.link.cursor else s.link.cursorAfter a
      retransTimer := if a = s.link.vA then s.link.retransTimer
        else if s.link.retain.drop (a - s.link.vA).toNat = [] then none else some (10 * s.link.retransTimeout + 1)
      grantBase := a, grantRoom := min room.toNat 8 } := by
    obtain rfl | h := eq_or_ne a s.link.vA
    · simp only [HostLink.acknowledge, if_true]
    · simp only [HostLink.acknowledge, if_neg h, List.isEmpty_iff, startTimer, HostLink.retransMs, Bool.false_eq_true, if_false]
  simp only [takeAck, State.acknowledged, State.modLink, hlink]

/-- A checked record other than HELLO, by the link state (R154, R166). -/
theorem byLinkState_down {s : State} (take : State → State) (h : s.link.state = .down) :
    byLinkState take s = { s with link := { s.link with item := .resync } } := by
  rw [byLinkState, h]
  rfl

theorem byLinkState_up {s : State} (take : State → State) (h : s.link.state = .up) : byLinkState take s = take s.heard := by
  simp only [byLinkState, h, modLink_restartSilence]

theorem takeAckFields_inRange {r : HostRecord} {s : State} {a : Seq} (h : s.link.InRange r.ack a) :
    takeAckFields r s = s.acknowledged a r.room.toNat := by
  simp only [takeAckFields, HostLink.ackValue_eq_some_iff.mpr h, takeAck_eq]

theorem takeAckFields_missed {r : HostRecord} {s : State} (h : ∀ a, ¬ s.link.InRange r.ack a) :
    takeAckFields r s = s.ackMissed := by
  have hnone : s.link.ackValue r.ack = none :=
    Option.eq_none_iff_forall_ne_some.mpr fun a ha => h a (HostLink.ackValue_eq_some_iff.mp ha)
  simp only [takeAckFields, hnone]
  rfl

theorem takeNak_inRange {r : HostRecord} {s : State} {a : Seq} (h : s.link.InRange r.ack a) :
    takeNak r s = (s.acknowledged a r.room.toNat).modLink (fun h =>
      if a = h.vS then h else { h with cursor := some a, retransTimer := some (10 * h.retransTimeout + 1) }) := by
  simp only [takeNak, HostLink.ackValue_eq_some_iff.mpr h, takeAck_eq]
  rfl

theorem takeNak_missed {r : HostRecord} {s : State} (h : ∀ a, ¬ s.link.InRange r.ack a) : takeNak r s = s.ackMissed := by
  have hnone : s.link.ackValue r.ack = none :=
    Option.eq_none_iff_forall_ne_some.mpr fun a ha => h a (HostLink.ackValue_eq_some_iff.mp ha)
  simp only [takeNak, hnone]
  rfl

/-! ## The release of the sources -/

/-- A released record is free, and no other changes (R16). -/
theorem frame_freeFrame (i j : Nat) (s : State) : (freeFrame i s).frame j = if j = i then none else s.frame j := by
  by_cases h : j = i
  · rw [if_pos h, h]
    exact Table.get_del_self ..
  · rw [if_neg h]
    refine (Table.get_del_of_ne _ h).trans ?_
    cases hr : s.frame i with
    | none => rw [releaseChain_of_free hr]; rfl
    | some r =>
      rw [releaseChain_of_frame hr]
      exact State.frame_putFrame_of_ne _ _ h

/-- A release touches nothing but the store. -/
theorem releaseChain_eq (i : Nat) (s : State) : releaseChain i s = { s with store := (releaseChain i s).store } := by
  cases hr : s.frame i with
  | none => rw [releaseChain_of_free hr]
  | some r => rw [releaseChain_of_frame hr]; rfl

theorem freeFrame_eq (i : Nat) (s : State) : freeFrame i s = { s with store := (freeFrame i s).store } := by
  unfold freeFrame
  rw [releaseChain_eq i s]

/-- A released entry leaves the Completion List, and its frame record or its slot is free (R142). -/
theorem releaseEntry_spec (s : State) (e : EntryRef) :
    (releaseEntry s e).completion = s.completion.filter (· ≠ e) ∧
      (∀ i, (releaseEntry s e).frame i = if .frame i = e then none else s.frame i) ∧
      (∀ k, Table.get (releaseEntry s e).rejects k = if .reject k = e then none else Table.get s.rejects k) ∧
      releaseEntry s e = { s with
        store := (releaseEntry s e).store, completion := (releaseEntry s e).completion, rejects := (releaseEntry s e).rejects } := by
  cases e with
  | frame j =>
    have hfree := freeFrame_eq j { s with completion := s.completion.filter (· ≠ .frame j) }
    refine ⟨congrArg State.completion hfree, fun i => ?_, fun k => ?_, ?_⟩
    · refine (frame_freeFrame j i _).trans ?_
      simp only [EntryRef.frame.injEq]
      rfl
    · rw [if_neg nofun]
      exact congrArg (fun t => Table.get t.rejects k) hfree
    · simp only [releaseEntry]
      rw [hfree]
  | reject j =>
    refine ⟨rfl, fun i => (if_neg nofun).symm, fun k => ?_, rfl⟩
    simp only [EntryRef.reject.injEq]
    split
    next h => rw [h]; exact Table.get_del_self ..
    next h => exact Table.get_del_of_ne _ h

theorem releaseEntries_spec (es : List EntryRef) (s : State) :
    let t := es.foldl releaseEntry s
    t.completion = s.completion.filter (· ∉ es) ∧
      (∀ i, t.frame i = if .frame i ∈ es then none else s.frame i) ∧
      (∀ k, Table.get t.rejects k = if .reject k ∈ es then none else Table.get s.rejects k) ∧
      t = { s with store := t.store, completion := t.completion, rejects := t.rejects } := by
  induction es generalizing s with
  | nil => simp
  | cons e es ih =>
    obtain ⟨hcompletion, hframe, hslot, hrest⟩ := releaseEntry_spec s e
    obtain ⟨ihcompletion, ihframe, ihslot, ihrest⟩ := ih (releaseEntry s e)
    simp only [List.foldl_cons]
    refine ⟨?_, fun i => ?_, fun k => ?_, ?_⟩
    · rw [ihcompletion, hcompletion, List.filter_filter]
      simp only [List.mem_cons, not_or, Bool.decide_and, Bool.and_comm]
    · rw [ihframe, hframe]
      by_cases hmem : EntryRef.frame i ∈ es <;> by_cases heq : EntryRef.frame i = e <;> simp [hmem, heq]
    · rw [ihslot, hslot]
      by_cases hmem : EntryRef.reject k ∈ es <;> by_cases heq : EntryRef.reject k = e <;> simp [hmem, heq]
    · rw [ihrest, hrest]

theorem Retained.isReply_iff (k : Retained) : k.isReply = true ↔ k.content = .reply := by
  unfold Retained.isReply
  split <;> simp_all

theorem Retained.freesSlot_iff (k : Retained) :
    k.freesSlot = true ↔ ∃ entries j, k.content = .txDone entries ∧ .reject j ∈ entries := by
  unfold Retained.freesSlot
  split
  next entries h =>
    simp only [List.any_eq_true, h, Content.txDone.injEq, exists_and_left, exists_eq_left']
    constructor
    · rintro ⟨e, he, hslot⟩
      cases e with
      | frame i => cases hslot
      | reject j => exact ⟨j, he⟩
    · rintro ⟨j, hj⟩
      exact ⟨_, hj, rfl⟩
  next h => simpa using fun entries hentries => absurd hentries (h entries)

theorem Retained.emptiesLine_eq_some_iff (s : State) (k : Retained) (n : LineNo) :
    k.emptiesLine s = some n ↔ ∃ i offset length first lossBefore resent r,
      k.content = .rxSegment i offset length first true lossBefore resent ∧ s.frame i = some r ∧ r.line = n := by
  unfold Retained.emptiesLine
  split
  next i offset length first lossBefore resent h => simp [h]
  next h =>
    simp only [reduceCtorEq, false_iff]
    rintro ⟨i, offset, length, first, lossBefore, resent, r, hcontent, -⟩
    exact h _ _ _ _ _ _ hcontent

/-- Settles O53: each record by the state of the link and the range of its number, each release by its content. -/
theorem acknowledgementRows : Obligations.AcknowledgementRows := by
  refine ⟨fun r s hrunning hsearching hpayload => ?events, fun h a => ?cursor, fun s q => ?releases,
    fun acked lines s => ?after⟩
  case events =>
    have hack : exec (.hostAck r) s = .next (serve false (byLinkState (takeAckFields r) s)) :=
      exec_checked_searching (t := .ack) hrunning hsearching hpayload
    have hnak : exec (.hostNak r) s = .next (serve false (byLinkState (takeNak r) s)) :=
      exec_checked_searching (t := .nak) hrunning hsearching hpayload
    rw [hack, hnak]
    refine ⟨fun hdown => ?_, fun hup hout => ?_, fun a hup hin => ?_⟩
    · rw [byLinkState_down _ hdown, byLinkState_down _ hdown]
      exact ⟨rfl, rfl⟩
    · rw [byLinkState_up _ hup, byLinkState_up _ hup, takeAckFields_missed (s := s.heard) hout,
        takeNak_missed (s := s.heard) hout]
      exact ⟨rfl, rfl⟩
    · rw [byLinkState_up _ hup, byLinkState_up _ hup, takeAckFields_inRange (s := s.heard) hin,
        takeNak_inRange (s := s.heard) hin]
      exact ⟨rfl, rfl⟩
  case cursor =>
    refine ⟨fun hnone => by simp only [HostLink.cursorAfter, hnone], fun c hc => ⟨fun hpassed hne => ?_,
      fun hpassed heq => ?_, fun hahead => ?_⟩⟩ <;> simp only [HostLink.cursorAfter, hc]
    · rw [if_pos hpassed, if_neg hne]
    · rw [if_pos hpassed, if_pos heq]
    · rw [if_neg (Nat.not_lt.mpr hahead)]
  case releases =>
    refine ⟨rfl, fun _ _ => rfl, fun _ _ _ _ => rfl, fun _ _ _ _ _ _ => rfl, fun i _ _ _ _ _ r hr => ?_, rfl,
      fun _ _ => rfl, fun _ _ => rfl, fun entries => releaseEntries_spec entries s⟩
    simp only [releaseRecord, if_true, releaseReceived, hr]
  case after =>
    intro reply slot
    have hreply : acked.any Retained.isReply = true ↔ reply := by
      simp only [List.any_eq_true, Retained.isReply_iff, reply]
    have hslot : acked.any Retained.freesSlot = true ↔ slot := by
      simp only [List.any_eq_true, Retained.freesSlot_iff, slot]
    exact ⟨_, _, fun h => if_pos (hreply.mpr h), fun h => if_neg (hreply.not.mpr h), fun h => if_pos (hslot.mpr h),
      fun h => if_neg (hslot.not.mpr h), rfl, Retained.emptiesLine_eq_some_iff s⟩

/-! ## Host sequenced records -/

/-- The send sequence of the record is one of the 8 before V(R) (R159). -/
def HostLink.Again (h : HostLink) (r : HostRecord) : Prop :=
  ∃ d : Seq, 1 ≤ d.toNat ∧ d.toNat ≤ 8 ∧ r.seq.toNat = (h.vR - d).toNat

theorem HostLink.again_iff (h : HostLink) (r : HostRecord) :
    h.Again r ↔ r.seq.toNat < 64 ∧ h.isDuplicate (r.seq.setWidth 6) = true := by
  simp only [HostLink.Again, HostLink.isDuplicate, Bool.and_eq_true, decide_eq_true_eq]
  constructor
  · rintro ⟨d, hlow, hhigh, hseq⟩
    have hback : h.vR - BitVec.setWidth 6 r.seq = d := by
      have heq : BitVec.setWidth 6 r.seq = h.vR - d := by
        apply BitVec.eq_of_toNat_eq
        rw [BitVec.toNat_setWidth, hseq, Nat.mod_eq_of_lt (h.vR - d).isLt]
      rw [heq]
      bv_omega
    rw [hback]
    exact ⟨hseq ▸ (h.vR - d).isLt, hlow, hhigh⟩
  · rintro ⟨hsmall, hlow, hhigh⟩
    refine ⟨_, hlow, hhigh, ?_⟩
    bv_omega

/-- A send sequence of V(R), read from the octet, is V(R) (R187). -/
theorem HostLink.inOrder_iff (h : HostLink) (r : HostRecord) :
    r.seq.toNat = h.vR.toNat ↔ r.seq.toNat < 64 ∧ r.seq.setWidth 6 = h.vR := by
  constructor
  · intro heq
    have := h.vR.isLt
    exact ⟨heq ▸ this, BitVec.eq_of_toNat_eq (by rw [BitVec.toNat_setWidth, heq, Nat.mod_eq_of_lt this])⟩
  · rintro ⟨hsmall, heq⟩
    rw [← heq, BitVec.toNat_setWidth, Nat.mod_eq_of_lt hsmall]

theorem HostLink.judgeSequenced_accepted {h : HostLink} {r : HostRecord} (kind : SequencedKind)
    (hin : r.seq.toNat = h.vR.toNat) (hroom : h.inbound.length < 8) :
    h.judgeSequenced kind r = { h with
      inbound := h.inbound ++ [{ kind := kind, payload := r.payload }], vR := h.vR + 1, ackOwed := true, nakSent := false } := by
  obtain ⟨hsmall, hv⟩ := (h.inOrder_iff r).mp hin
  exact (if_neg (Nat.not_le.mpr hsmall)).trans ((if_pos hv).trans (if_pos hroom))

theorem HostLink.judgeSequenced_again {h : HostLink} {r : HostRecord} (kind : SequencedKind) (hagain : h.Again r) :
    h.judgeSequenced kind r = { h with ackOwed := true } := by
  obtain ⟨hsmall, hdup⟩ := (h.again_iff r).mp hagain
  have hother : r.seq.setWidth 6 ≠ h.vR := by
    intro heq
    rw [heq] at hdup
    simp [HostLink.isDuplicate] at hdup
  exact (if_neg (Nat.not_le.mpr hsmall)).trans ((if_neg hother).trans (if_pos hdup))

theorem HostLink.judgeSequenced_nak {h : HostLink} {r : HostRecord} (kind : SequencedKind)
    (hbad : (r.seq.toNat = h.vR.toNat ∧ 8 ≤ h.inbound.length) ∨ (r.seq.toNat ≠ h.vR.toNat ∧ ¬ h.Again r)) :
    h.judgeSequenced kind r = h.makeNak := by
  rcases hbad with ⟨hin, hfull⟩ | ⟨hout, hnew⟩
  · obtain ⟨hsmall, hv⟩ := (h.inOrder_iff r).mp hin
    exact (if_neg (Nat.not_le.mpr hsmall)).trans ((if_pos hv).trans (if_neg (Nat.not_lt.mpr hfull)))
  · rw [HostLink.again_iff] at hnew
    rw [Ne, HostLink.inOrder_iff] at hout
    by_cases hsmall : r.seq.toNat < 64
    · exact (if_neg (Nat.not_le.mpr hsmall)).trans
        ((if_neg fun hv => hout ⟨hsmall, hv⟩).trans (if_neg fun hdup => hnew ⟨hsmall, hdup⟩))
    · exact if_pos (Nat.not_lt.mp hsmall)

/-- Settles O54: the acknowledge field first, then the judgment of the send sequence by the three lemmas above. -/
theorem sequencedRecordRows : Obligations.SequencedRecordRows := by
  intro kind r s hrunning hsearching hpayload
  have hexec : exec (.hostSequencedRecord kind r) s = .next (serve false
      (byLinkState (fun t => (takeAckFields r t).modLink (fun h => h.judgeSequenced kind r)) s)) := by
    cases kind
    · exact exec_checked_searching (t := .command) hrunning hsearching hpayload
    · exact exec_checked_searching (t := .txSegment) hrunning hsearching hpayload
  refine ⟨fun hdown => by rw [hexec, byLinkState_down _ hdown], fun hup hsame => ?noProgress, fun hup base hbase => ?judged⟩
  case noProgress =>
    simp [State.acknowledged, State.heard, afterReleases]
  case judged =>
    intro h gives inOrder again
    have htaken : takeAckFields r s.heard = base := by
      rcases hbase with ⟨a, hin, rfl⟩ | ⟨hout, rfl⟩
      · exact takeAckFields_inRange (s := s.heard) hin
      · exact takeAckFields_missed (s := s.heard) hout
    have hgives {k : HostLink} (hk : h.judgeSequenced kind r = k) : gives k := by
      refine Eq.mp (congrArg gives hk) (hexec.trans (congrArg (fun u => Host.Outcome.next (serve false u)) ?_))
      rw [byLinkState_up _ hup, htaken]
      rfl
    refine ⟨fun hin hroom => hgives (HostLink.judgeSequenced_accepted kind hin hroom),
      fun hbad hfirst => hgives ((HostLink.judgeSequenced_nak kind hbad).trans ?_),
      fun hbad hsent => hgives ((HostLink.judgeSequenced_nak kind hbad).trans (if_pos hsent)),
      fun hagain => hgives (HostLink.judgeSequenced_again kind hagain)⟩
    exact if_neg (by simp [hfirst])

end Sys2Proof.Machine

end

section
-- The proofs below are checked one after another: in parallel each waits for the others with a thread of its own.
set_option Elab.async false

/-! PROOFS. The octets of a frame under an append, a release and a trim (1.1 to 1.4). -/

namespace Sys2Proof.Machine

/-! ## The octets of a chain -/

/-- The octets of a chain, first cell to last (R4). -/
def chainOctets (m : List Host.Cell) (chain : List ChainCell) : List Byte := chain.flatMap (cellOctetsOf m)

theorem frameOctets_eq (s : State) (r : FrameRecord) : frameOctets s r = chainOctets s.store.octets r.chain := rfl

theorem chainOctets_append (m : List Host.Cell) (a b : List ChainCell) :
    chainOctets m (a ++ b) = chainOctets m a ++ chainOctets m b := List.flatMap_append

theorem chainOctets_singleton (m : List Host.Cell) (c : ChainCell) : chainOctets m [c] = cellOctetsOf m c := by
  simp [chainOctets]

@[simp] theorem length_cellOctetsOf (m : List Host.Cell) (c : ChainCell) : (cellOctetsOf m c).length = c.fill := by
  simp [cellOctetsOf]

theorem length_chainOctets (m : List Host.Cell) (chain : List ChainCell) :
    (chainOctets m chain).length = (chain.map ChainCell.fill).sum := by
  simp [chainOctets, List.length_flatMap]

theorem cellOctetsOf_take (m : List Host.Cell) (c : ChainCell) {k : Nat} (h : k ≤ c.fill) :
    (cellOctetsOf m c).take k = cellOctetsOf m { c with fill := k } := by
  simp only [cellOctetsOf, ← List.map_take, List.take_range, Nat.min_eq_left h]

theorem cellOctetsOf_succ (m : List Host.Cell) (c : ChainCell) :
    cellOctetsOf m { c with fill := c.fill + 1 } = cellOctetsOf m c ++ [readOctet m (cellAddress c.cell c.fill)] := by
  simp only [cellOctetsOf, List.range_succ, List.map_append, List.map_singleton]

/-- Positions of different cells have different addresses (R1). -/
theorem cellAddress_ne {c d p q : Nat} (hne : c ≠ d) (hp : p < 32) (hq : q < 32) : cellAddress c p ≠ cellAddress d q := by
  simp only [cellAddress, Config.cellOctets]
  omega

/-- A write in another cell leaves the octets of a chain as they are. -/
theorem chainOctets_writeOctet {m : List Host.Cell} {chain : List ChainCell} {cell position : Nat} (b : Byte)
    (hposition : position < 32) (hfill : ∀ c ∈ chain, c.fill ≤ 32) (hother : ∀ c ∈ chain, c.cell ≠ cell) :
    chainOctets (writeOctet m (cellAddress cell position) b) chain = chainOctets m chain := by
  refine List.flatMap_congr fun c hc => List.map_congr_left fun p hp => readOctet_writeOctet_of_ne _ _ ?_
  exact cellAddress_ne (hother c hc) (by have := hfill c hc; have := List.mem_range.mp hp; omega) hposition

/-- A write behind the octets of a cell leaves them as they are. -/
theorem cellOctetsOf_writeOctet (m : List Host.Cell) (c : ChainCell) (b : Byte) :
    cellOctetsOf (writeOctet m (cellAddress c.cell c.fill) b) c = cellOctetsOf m c := by
  refine List.map_congr_left fun p hp => readOctet_writeOctet_of_ne _ _ ?_
  have := List.mem_range.mp hp
  simp only [cellAddress]
  omega

theorem FrameRecord.fill_le_of_chainKept {r : FrameRecord} (h : r.chainKept) : ∀ c ∈ r.chain, c.fill ≤ 32 := by
  rcases r.chainKept_iff.mp h with ⟨hnil, -⟩ | ⟨front, c, hchain, hfull, -, hhigh, -⟩
  · simp [hnil]
  · intro d hd
    rcases List.mem_append.mp (hchain ▸ hd) with hd | hd
    · exact (hfull d hd).le
    · rwa [List.mem_singleton.mp hd]

/-! ## Cells stand in one place (R5, R6) -/

theorem State.nodup_of_cellsKept {s : State} {i : Nat} {r : FrameRecord} (hs : s.cellsKept) (hr : s.frame i = some r) :
    (s.store.freeCells ++ (r.cells ++ s.heldBut i)).Nodup :=
  (((State.heldCells_of_frame hs.1 hr).append_left _).symm.trans hs.2).nodup_iff.mpr List.nodup_range

theorem State.cells_subset_heldBut {s : State} {i j : Nat} {q : FrameRecord} (hne : j ≠ i) (hq : s.frame j = some q) :
    q.cells ⊆ s.heldBut i := by
  intro c hc
  refine List.mem_flatMap.mpr ⟨(j, q), Table.mem_of_get ?_, hc⟩
  exact (Table.get_del_of_ne _ hne).trans hq

/-! ## Append (R3, R7) -/

theorem claimCell_eq_none_iff (k : CellClaim) (s : State) : claimCell k s = none ↔
    match k with
    | .transmitData => s.store.freeCells.length ≤ s.reserveFloor ∨ s.store.freeCells = []
    | .receiveData => s.store.freeCells = [] := by
  unfold claimCell State.freeCellCount
  cases k <;> cases s.store.freeCells <;> simp

/-- An append in the last cell of the chain (R3). -/
theorem appendOctet_of_room {k : CellClaim} {i : Nat} {s : State} {r : FrameRecord} {c : ChainCell} (b : Byte)
    (hr : s.frame i = some r) (hlast : r.chain.getLast? = some c) (hroom : c.fill < 32) :
    appendOctet k i b s = some ((s.writeCell c.cell c.fill b).putFrame i
      { r with chain := r.chain.dropLast ++ [{ c with fill := c.fill + 1 }], stored := r.stored + 1 }) := by
  simp [appendOctet, hr, hlast, Option.filter, hroom, Config.cellOctets]

/-- An append with no room in the last cell makes a claim (R3). -/
theorem appendOctet_of_full {k : CellClaim} {i : Nat} {s : State} {r : FrameRecord} (b : Byte) (hr : s.frame i = some r)
    (hfull : ∀ c, r.chain.getLast? = some c → c.fill = 32) :
    appendOctet k i b s = (claimCell k s).map (fun p => (p.2.writeCell p.1 0 b).putFrame i
      { r with chain := r.chain ++ [{ cell := p.1, fill := 1 }], stored := r.stored + 1 }) := by
  have hnone : r.chain.getLast?.filter (fun c => c.fill < Config.cellOctets) = none := by
    cases hlast : r.chain.getLast? with
    | none => rfl
    | some c => simp [Option.filter, hfull c hlast, Config.cellOctets]
  simp only [appendOctet, hr, hnone]
  cases claimCell k s <;> rfl

theorem appendOctet_eq_none_iff {k : CellClaim} {i : Nat} {s : State} {r : FrameRecord} (b : Byte) (hkept : r.chainKept)
    (hr : s.frame i = some r) :
    appendOctet k i b s = none ↔ (∀ c, r.chain.getLast? = some c → c.fill = 32) ∧ claimCell k s = none := by
  by_cases hfull : ∀ c, r.chain.getLast? = some c → c.fill = 32
  · simp only [appendOctet_of_full b hr hfull, Option.map_eq_none_iff, iff_and_self]
    exact fun _ => hfull
  · simp only [hfull, false_and, iff_false]
    push Not at hfull
    obtain ⟨c, hlast, hne⟩ := hfull
    have hle := FrameRecord.fill_le_of_chainKept hkept c (List.mem_of_getLast? hlast)
    rw [appendOctet_of_room b hr hlast (by omega)]
    simp

/-- What an append does to the pool, the chain and the octets: it writes at a position of a cell, which stands behind the
octets of the frame and in no other chain (R3). -/
structure Appended (i : Nat) (b : Byte) (s t : State) (pool : List Nat) (r : FrameRecord) (chain : List ChainCell)
    (cell position : Nat) : Prop where
  state : t = { s with store := t.store }
  pool : t.store.freeCells = pool
  octets : t.store.octets = writeOctet s.store.octets (cellAddress cell position) b
  record : t.frame i = some { r with chain := chain, stored := r.stored + 1 }
  others : ∀ j, j ≠ i → t.frame j = s.frame j
  behind : chainOctets t.store.octets chain = chainOctets s.store.octets r.chain ++ [b]
  position : position < 32
  apart : cell ∉ s.heldBut i

theorem appended_of_room {k : CellClaim} {i : Nat} {b : Byte} {s t : State} {r : FrameRecord} {c : ChainCell}
    (hcells : s.cellsKept) (hchain : r.chainKept) (hr : s.frame i = some r) (h : appendOctet k i b s = some t)
    (hlast : r.chain.getLast? = some c) (hroom : c.fill < 32) :
    Appended i b s t s.store.freeCells r (r.chain.dropLast ++ [{ c with fill := c.fill + 1 }]) c.cell c.fill := by
  rw [appendOctet_of_room b hr hlast hroom] at h
  cases h
  have hsplit : r.chain = r.chain.dropLast ++ [c] := (List.dropLast_append_getLast? c hlast).symm
  have hnodup := (List.nodup_append.mp (State.nodup_of_cellsKept hcells hr)).2.1
  have hcell : c.cell ∈ r.cells := List.mem_map_of_mem (List.mem_of_getLast? hlast)
  have hfront : ∀ d ∈ r.chain.dropLast, d.cell ≠ c.cell := by
    have hown := (List.nodup_append.mp hnodup).1
    rw [FrameRecord.cells, hsplit, List.map_append] at hown
    exact fun d hd => (List.nodup_append.mp hown).2.2 d.cell (List.mem_map_of_mem hd) c.cell (by simp)
  refine ⟨rfl, rfl, rfl, State.frame_putFrame_self .., fun j hj => State.frame_putFrame_of_ne _ _ hj, ?_, hroom,
    fun hin => (List.nodup_append.mp hnodup).2.2 _ hcell _ hin rfl⟩
  rw [putFrame_octets]
  conv_rhs => rw [hsplit]
  simp only [State.writeCell, chainOctets_append, chainOctets_singleton, cellOctetsOf_succ, cellOctetsOf_writeOctet,
    readOctet_writeOctet_self, List.append_assoc]
  rw [chainOctets_writeOctet b hroom (fun d hd => FrameRecord.fill_le_of_chainKept hchain d (List.mem_of_mem_dropLast hd)) hfront]

theorem appended_of_full {k : CellClaim} {i : Nat} {b : Byte} {s t : State} {r : FrameRecord}
    (hcells : s.cellsKept) (hchain : r.chainKept) (hr : s.frame i = some r) (h : appendOctet k i b s = some t)
    (hfull : ∀ c, r.chain.getLast? = some c → c.fill = 32) :
    ∃ head rest, s.store.freeCells = head :: rest ∧
      Appended i b s t rest r (r.chain ++ [{ cell := head, fill := 1 }]) head 0 := by
  rw [appendOctet_of_full b hr hfull] at h
  obtain ⟨⟨head, u⟩, hclaim, rfl⟩ := Option.map_eq_some_iff.mp h
  obtain ⟨hpool, hu⟩ := claimCell_eq_some hclaim
  have hnodup := State.nodup_of_cellsKept hcells hr
  rw [hpool, List.cons_append, List.nodup_cons, List.mem_append, List.mem_append, not_or, not_or] at hnodup
  obtain ⟨⟨-, hown, hother⟩, -⟩ := hnodup
  have hfree : ∀ c ∈ r.chain, c.cell ≠ head := fun c hc heq => hown (heq ▸ List.mem_map_of_mem hc)
  have hframes : ∀ j, u.frame j = s.frame j := fun j => by rw [hu]; rfl
  have hoctets : u.store.octets = s.store.octets := by rw [hu]
  refine ⟨head, u.store.freeCells, hpool, ?_, rfl, ?_, State.frame_putFrame_self .., fun j hj => ?_, ?_, by omega, hother⟩
  · rw [hu]; rfl
  · simp only [putFrame_octets, State.writeCell, hoctets]
  · exact (State.frame_putFrame_of_ne _ _ hj).trans (hframes j)
  · simp only [putFrame_octets, State.writeCell, hoctets, chainOctets_append, chainOctets_singleton]
    rw [chainOctets_writeOctet b (by omega) (FrameRecord.fill_le_of_chainKept hchain) hfree]
    simp [cellOctetsOf]

/-- An append leaves the octets of the other frames as they are. -/
theorem Appended.other {i : Nat} {b : Byte} {s t : State} {pool : List Nat} {r : FrameRecord} {chain : List ChainCell}
    {cell position : Nat} (h : Appended i b s t pool r chain cell position) (hchains : s.chainsKept) {j : Nat} {q : FrameRecord}
    (hne : j ≠ i) (hq : s.frame j = some q) : t.frame j = some q ∧ frameOctets t q = frameOctets s q := by
  refine ⟨(h.others j hne).trans hq, ?_⟩
  rw [frameOctets_eq, frameOctets_eq, h.octets]
  refine chainOctets_writeOctet b h.position (FrameRecord.fill_le_of_chainKept (hchains _ (State.mem_of_frame hq))) fun c hc heq => ?_
  exact h.apart (State.cells_subset_heldBut hne hq (heq ▸ List.mem_map_of_mem hc))

theorem exists_appended {k : CellClaim} {i : Nat} {b : Byte} {s t : State} {r : FrameRecord}
    (hcells : s.cellsKept) (hchain : r.chainKept) (hr : s.frame i = some r) (h : appendOctet k i b s = some t) :
    ∃ pool chain cell position, Appended i b s t pool r chain cell position := by
  by_cases hfull : ∀ c, r.chain.getLast? = some c → c.fill = 32
  · obtain ⟨head, rest, -, happended⟩ := appended_of_full hcells hchain hr h hfull
    exact ⟨_, _, _, _, happended⟩
  · push Not at hfull
    obtain ⟨c, hlast, hne⟩ := hfull
    have hle := FrameRecord.fill_le_of_chainKept hchain c (List.mem_of_getLast? hlast)
    exact ⟨_, _, _, _, appended_of_room hcells hchain hr h hlast (by omega)⟩

/-- Settles O7: an append with room and one with a claim are each an `Appended`, which says what is written and what is not. -/
theorem appendAddsOneOctet : Obligations.AppendAddsOneOctet := by
  intro k i b s r hcells hchains hr
  have hkept : r.chainKept := hchains _ (State.mem_of_frame hr)
  refine ⟨(appendOctet_eq_none_iff b hkept hr).trans (and_congr_right' (claimCell_eq_none_iff k s)), fun t ht => ?_⟩
  obtain ⟨pool, chain, cell, position, happended⟩ := exists_appended hcells hkept hr ht
  have hstands {pool chain cell position} (h : Appended i b s t pool r chain cell position) :
      t.store.freeCells = pool ∧ (∃ q, t.frame i = some q ∧ q.chain = chain) ∧
        readOctet t.store.octets (32 * cell + position) = b ∧
        ∀ a, a ≠ 32 * cell + position → readOctet t.store.octets a = readOctet s.store.octets a := by
    refine ⟨h.pool, ⟨_, h.record, rfl⟩, ?_, fun a ha => ?_⟩
    · rw [h.octets]; exact readOctet_writeOctet_self ..
    · rw [h.octets]; exact readOctet_writeOctet_of_ne _ _ ha
  refine ⟨(StoreMove.append ht).cellsKept hcells, (StoreMove.append ht).chainsKept hchains, lineSide_appendOctet ht,
    lines_of_appendOctet ht, ⟨_, happended.record, happended.behind, rfl, rfl⟩, fun j q hj hq => happended.other hchains hj hq,
    happended.others, happended.state, fun c hlast hroom => ?_, fun hfull => ?_⟩
  · exact hstands (appended_of_room hcells hkept hr ht hlast hroom)
  · obtain ⟨head, rest, hpool, happended⟩ := appended_of_full hcells hkept hr ht hfull
    exact ⟨head, rest, hpool, hstands happended⟩

/-! ## Release and trim (R9, R16) -/

theorem Table.length_del {α : Type} {t : List (Nat × α)} {k : Nat} {v : α} (hw : Table.wf t) (h : Table.get t k = some v) :
    (Table.del t k).length + 1 = t.length :=
  (Table.perm_cons_del hw h).length_eq.symm

/-- The octets of a trimmed chain are those of the chain but the last two (R3). -/
theorem chainOctets_trimmedChain (m : List Host.Cell) {r : FrameRecord} (h : r.chainKept) (hlong : 3 ≤ r.stored) :
    chainOctets m (trimmedChain r.chain).1 = (chainOctets m r.chain).take (r.stored - 2) := by
  rcases r.chainKept_iff.mp h with ⟨-, hzero⟩ | ⟨front, c, hchain, hfull, hlow, hhigh, hstored⟩
  · omega
  · have hfront : (chainOctets m front).length = 32 * front.length := by
      rw [length_chainOctets, List.map_congr_left (g := fun _ => 32) hfull]
      simp [Nat.mul_comm]
    obtain ⟨hmany, htwo, hone, hback⟩ := trimmedChain_append front c
    rw [hchain, chainOctets_append, chainOctets_singleton, List.take_append, hfront, hstored]
    rcases Nat.lt_trichotomy c.fill 2 with hlt | heq | hgt
    · rcases List.eq_nil_or_concat front with hnil | ⟨before, p, hcat⟩
      · rw [hnil] at hstored
        simp only [List.length_nil] at hstored
        omega
      · rw [List.concat_eq_append] at hcat
        have hp : p.fill = 32 := hfull p (by simp [hcat])
        rw [hback before p hlt hcat, hcat, chainOctets_append, chainOctets_append, chainOctets_singleton, chainOctets_singleton]
        have hbefore : (chainOctets m before).length = 32 * before.length := by
          rw [hcat, chainOctets_append, chainOctets_singleton, List.length_append, length_cellOctetsOf, hp] at hfront
          simp only [List.length_append, List.length_singleton] at hfront
          omega
        rw [List.take_append, hbefore, List.take_of_length_le (l := chainOctets m before) (by
          rw [hbefore, List.length_append, List.length_singleton]; omega)]
        simp only [List.length_append, List.length_singleton]
        rw [show 32 * (before.length + 1) + c.fill - 2 - 32 * before.length = 31 by omega,
          show 32 * (before.length + 1) + c.fill - 2 - 32 * (before.length + 1) = 0 by omega, List.take_zero, List.append_nil,
          cellOctetsOf_take m p (by omega)]
    · rw [htwo heq, List.take_of_length_le (by omega), heq]
      simp
    · rw [hmany hgt, List.take_of_length_le (by omega), chainOctets_append, chainOctets_singleton,
        show 32 * front.length + c.fill - 2 - 32 * front.length = c.fill - 2 by omega, cellOctetsOf_take m c (by omega)]

theorem trimmedChain_released {chain : List ChainCell} {c : ChainCell} (hlast : chain.getLast? = some c) :
    (trimmedChain chain).2 = if c.fill ≤ 2 then [c.cell] else [] := by
  simp only [trimmedChain, hlast]
  by_cases hmany : 3 ≤ c.fill
  · rw [if_pos hmany, if_neg (by omega)]
  · rw [if_neg hmany, if_pos (by omega : c.fill ≤ 2)]
    by_cases htwo : c.fill = 2
    · rw [if_pos htwo]
    · rw [if_neg htwo]
      split <;> rfl

/-- Settles O8: the release and the trim written out, and the octets of the trimmed chain. -/
theorem releaseAndTrim : Obligations.ReleaseAndTrim := by
  refine ⟨fun i s r hr => ?free, fun i s r hr => ?release, fun i s r hr hkept hlong => ?trim⟩
  case free =>
    have hframe := frame_freeFrame i
    refine ⟨?_, ?_, (hframe i s).trans (if_pos rfl), fun j hj => (hframe j s).trans (if_neg hj), freeFrame_eq i s, fun hw => ?_⟩
    · simp only [freeFrame, releaseChain_of_frame hr]; rfl
    · simp only [freeFrame, releaseChain_of_frame hr]; rfl
    · have hframes : (freeFrame i s).store.frames = Table.del (Table.put s.store.frames i { r with chain := [], stored := 0 }) i := by
        simp only [freeFrame, releaseChain_of_frame hr]; rfl
      have hlen : (freeFrame i s).store.frames.length + 1 = s.store.frames.length := by
        rw [hframes, Table.length_del (Table.wf_put _ _ hw) (Table.get_put_self ..), (Table.put_perm_cons_del i _ hw).length_eq,
          List.length_cons, Table.length_del hw hr]
      refine ⟨hframes ▸ Table.wf_del i (Table.wf_put i _ hw), hlen, fun hcount => ?_⟩
      simp only [State.freeRecordCount, Config.frameRecords]
      omega
  case release =>
    simp only [releaseChain_of_frame hr]
    exact ⟨rfl, rfl, State.frame_putFrame_self .., fun j hj => State.frame_putFrame_of_ne _ _ hj, rfl⟩
  case trim =>
    simp only [trimFrame_of_frame hr]
    refine ⟨⟨_, State.frame_putFrame_self .., FrameRecord.chainKept_trim hkept, rfl, rfl, ?_⟩, fun c hc => ?_, rfl,
      fun j hj => State.frame_putFrame_of_ne _ _ hj, rfl⟩
    · exact chainOctets_trimmedChain s.store.octets hkept hlong
    · rw [← trimmedChain_released hc]; rfl

end Sys2Proof.Machine

end

section
-- The proofs below are checked one after another: in parallel each waits for the others with a thread of its own.
set_option Elab.async false

/-! PROOFS. How a transmit frame leaves its place: failure row by row (2.4). -/

namespace Sys2Proof.Machine

/-! ## The steps of a failure (R35, R37, R48) -/

/-- The line without this frame in the transmit queue of this priority (R37). -/
def Line.unqueue (p : Priority) (i : Nat) (l : Line) : Line :=
  { l with tx := { l.tx with
    urgent := if p = .urgent then l.tx.urgent.filter (· ≠ i) else l.tx.urgent
    normal := if p = .normal then l.tx.normal.filter (· ≠ i) else l.tx.normal } }

theorem leaveQueue_of_frame {s : State} {i : Nat} {r : FrameRecord} (h : s.frame i = some r) :
    leaveQueue i s = s.modLine r.line (Line.unqueue r.priority i) := by
  simp only [leaveQueue, h]
  cases r.priority <;> rfl

/-- The cells of this chain join the tail of the pool in chain order (R9). -/
def State.pooled (s : State) (chain : List ChainCell) : State :=
  { s with store := { s.store with freeCells := s.store.freeCells ++ chain.map ChainCell.cell } }

/-- The record leaves the Tag Map for the Completion List (R21, R48). -/
def State.listed (s : State) (tag i : Nat) : State :=
  { s with tags := Table.del s.tags tag, completion := s.completion ++ [.frame i] }

theorem enterDone_of_frame {s : State} {i : Nat} {r : FrameRecord} (how : DoneTally) (h : s.frame i = some r) :
    enterDone how i s = ((s.listed r.tag i).putFrame i { r with state := .done }).modLine r.line (Line.countDone how) := by
  simp only [enterDone, h]
  rfl

theorem enterDiscarding_of_frame {s : State} {i : Nat} {r : FrameRecord} (h : s.frame i = some r) :
    enterDiscarding i s =
      if (s.line r.line).flushing then enterDone .flushed i s else s.putFrame i { r with state := .discarding } := by
  simp only [enterDiscarding, h]

/-- A queued frame leaves its queue and releases its chain (R35 steps 2 and 3). -/
theorem releaseChain_leaveQueue (s : State) (i : Nat) (r : FrameRecord) :
    releaseChain i (leaveQueue i (s.putFrame i r)) =
      ((s.pooled r.chain).putFrame i { r with chain := [], stored := 0 }).modLine r.line (Line.unqueue r.priority i) := by
  have hleft : ((s.putFrame i r).modLine r.line (Line.unqueue r.priority i)).frame i = some r := State.frame_putFrame_self s i r
  rw [leaveQueue_of_frame (State.frame_putFrame_self s i r), releaseChain_of_frame hleft]
  simp only [State.putFrame, Table.put_put, State.modLine, State.line]
  rfl

theorem frame_releaseChain_leaveQueue (s : State) (i : Nat) (r : FrameRecord) :
    (releaseChain i (leaveQueue i (s.putFrame i r))).frame i = some { r with chain := [], stored := 0 } := by
  rw [releaseChain_leaveQueue]
  exact State.frame_putFrame_self ..

theorem Line.flushing_iff (l : Line) : l.flushing = true ↔ l.state = .closing ∧ l.close.txMode = .flush := by
  simp [Line.flushing]

theorem Line.countDone_flushed_of_closing {l : Line} (h : l.state = .closing) :
    l.countDone .flushed = { l with close := { l.close with flushed := satInc l.close.flushed } } := if_pos h

/-- A queued frame that has left its queue goes to DONE (R35, R48). -/
theorem enterDone_withdrawn (how : DoneTally) (s : State) (i : Nat) (r : FrameRecord) :
    enterDone how i (releaseChain i (leaveQueue i (s.putFrame i r))) =
      (((s.pooled r.chain).listed r.tag i).putFrame i { r with chain := [], stored := 0, state := .done }).modLine r.line
        (fun l => (l.unqueue r.priority i).countDone how) := by
  rw [enterDone_of_frame how (frame_releaseChain_leaveQueue ..), releaseChain_leaveQueue]
  simp [State.putFrame, State.listed, State.pooled, Table.put_put, State.modLine, State.line]

/-- A frame that waits in a transmit queue. -/
def FrameRecord.waits (r : FrameRecord) : Prop := r.state = .filling ∨ r.state = .ready

theorem failFrame_of_waiting {s : State} {i : Nat} {r : FrameRecord} (o : FrameOutcome) (h : s.frame i = some r)
    (hw : r.waits) :
    failFrame o i s =
      let s1 := releaseChain i (leaveQueue i (s.putFrame i (r.fixOutcome o)))
      if r.complete then enterDone .completed i s1 else enterDiscarding i s1 := by
  simp only [failFrame, h]
  rcases hw with hstate | hstate <;> rw [hstate]

theorem failFrame_of_sending {s : State} {i : Nat} {r : FrameRecord} (o : FrameOutcome) (h : s.frame i = some r)
    (hs : r.state = .sending) : failFrame o i s = s.putFrame i (r.fixOutcome o) := by
  simp only [failFrame, h, hs]

theorem failFrame_of_other {s : State} {i : Nat} {r : FrameRecord} (o : FrameOutcome) (h : s.frame i = some r)
    (hw : ¬ r.waits) (hs : r.state ≠ .sending) : failFrame o i s = s := by
  simp only [failFrame, h]
  split
  next hstate => exact absurd (.inl hstate) hw
  next hstate => exact absurd (.inr hstate) hw
  next hstate => exact absurd hstate hs
  next => rfl

/-- Settles O16: a queued frame withdraws and enters DONE or DISCARDING; a SENDING frame has its outcome fixed. -/
theorem failedFrameRows : Obligations.FailedFrameRows := by
  intro o i s r hr queued out freed emptied done
  have hput (t : State) (ht : t.frame i = some r) (f : FrameRecord → FrameRecord) : t.modFrame i f = t.putFrame i (f r) :=
    State.modFrame_of_frame ht f
  refine ⟨fun hq hc => ?_, fun hq hc hnot => ?_, fun hq hc hclosing hmode => ?_, fun hs => ?_, fun hq hs => ?_⟩
  · rw [failFrame_of_waiting o hr hq, hc, hput (done freed) hr]
    simp only [if_true]
    rw [enterDone_withdrawn]
    rfl
  · rw [failFrame_of_waiting o hr hq, hc, hput freed hr]
    simp only [Bool.false_eq_true, if_false]
    rw [enterDiscarding_of_frame (frame_releaseChain_leaveQueue ..), releaseChain_leaveQueue, if_neg, State.putFrame_modLine,
      State.putFrame_putFrame]
    · rfl
    · rw [State.line_modLine_self]
      exact fun h => hnot ((Line.flushing_iff _).mp h)
  · rw [failFrame_of_waiting o hr hq, hc, hput (done freed) hr]
    simp only [Bool.false_eq_true, if_false]
    rw [enterDiscarding_of_frame (frame_releaseChain_leaveQueue ..), if_pos, enterDone_withdrawn]
    · exact State.modLine_congr (Line.countDone_flushed_of_closing hclosing)
    · rw [releaseChain_leaveQueue]
      simp only [FrameRecord.fixOutcome]
      rw [State.line_modLine_self]
      exact (Line.flushing_iff _).mpr ⟨hclosing, hmode⟩
  · rw [failFrame_of_sending o hr hs, hput s hr]
    rfl
  · exact failFrame_of_other o hr hq hs

end Sys2Proof.Machine

end

section
-- The proofs below are checked one after another: in parallel each waits for the others with a thread of its own.
set_option Elab.async false

/-! PROOFS. The Segment Handler: first segments, later segments, and a whole frame in one segment (2.2, 2.3). -/

namespace Sys2Proof.Machine

/-! ## The event of a segment (R25) -/

theorem State.Offers.exec_txSegment {s : State} {payload : List Byte} (h : s.Offers payload) :
    exec .txSegment s = .next (serve false (runSegment false payload s)) := by
  obtain ⟨hrunning, hfresh, hhead⟩ := h
  obtain ⟨rest, hinbound⟩ := List.head?_eq_some_iff.mp hhead
  refine congrArg Host.Outcome.next ((if_neg (by simp [hrunning, hfresh])).trans ?_)
  rw [hinbound]

theorem segmentOf_eq_none_iff (payload : List Byte) : segmentOf payload = none ↔ payload.length < 6 := by
  unfold segmentOf
  split
  · simp only [List.length_cons, reduceCtorEq, false_iff]
    omega
  next h =>
    simp only [true_iff]
    by_contra hlong
    match payload, hlong with
    | a :: b :: c :: d :: e :: f :: data, _ => exact h a b c d e f data rfl
    | [], hlong | [_], hlong | [_, _], hlong | [_, _, _], hlong | [_, _, _, _], hlong | [_, _, _, _, _], hlong =>
      simp at hlong

theorem runSegment_of_first {atTick : Bool} {payload : List Byte} {g : Segment} {s : State} (hg : segmentOf payload = some g)
    (hfirst : g.first = true) :
    (∀ n i, firstCheck g s = .ok (n, i) →
      runSegment atTick payload s = endExecution (settleLine atTick n (acceptFirst g n i s))) ∧
    (∀ status, firstCheck g s = .error status →
      runSegment atTick payload s = ((rejectFirst g status s).map endExecution).getD (stallHead s)) := by
  simp only [runSegment, hg, hfirst, if_true]
  refine ⟨fun n i hcheck => by rw [hcheck], fun status hcheck => ?_⟩
  rw [hcheck]
  dsimp only
  cases rejectFirst g status s <;> rfl

theorem runSegment_of_later {atTick : Bool} {payload : List Byte} {g : Segment} {s : State} (hg : segmentOf payload = some g)
    (hfirst : g.first = false) :
    runSegment atTick payload s = endExecution (settleAt atTick (tagLine s g.tag) (laterSegment g s)) := by
  simp only [runSegment, hg, hfirst, Bool.false_eq_true, if_false]

/-! ## The checks of a first segment (Table 2.1) -/

/-- The checks behind that of the line number field. -/
theorem firstCheck_of_line {g : Segment} {s : State} {n : LineNo} (h : lineField g.line = some n) :
    firstCheck g s =
      if (s.line n).state ≠ .opened then .error .lineClosed
      else if (Table.get s.tags g.tag).isSome then .error .tagClash
      else if (s.line n).config.limit ≤ (s.line n).frameCount then .error .queueFull
      else if 1024 < g.declared ∨ 240 < g.data.length then .error .length
      else (claimRecord .tx s).elim (.error .noRecord) (fun i => .ok (n, i)) := by
  simp only [firstCheck, h, Config.maxFrame, Config.maxSegment]
  cases claimRecord .tx s <;> rfl

theorem firstCheck_of_fails {g : Segment} {s : State} {status : RejectStatus} (h : FirstFails g s status) :
    firstCheck g s = .error status := by
  cases status with
  | lineClosed =>
    cases hline : lineField g.line with
    | none => simp only [firstCheck, hline]
    | some n => rw [firstCheck_of_line hline, if_pos (h n hline)]
  | tagClash =>
    obtain ⟨n, hline, hopened, htag⟩ := h
    rw [firstCheck_of_line hline, if_neg (not_not.mpr hopened), if_pos htag]
  | queueFull =>
    obtain ⟨n, hline, hopened, htag, hfull⟩ := h
    rw [firstCheck_of_line hline, if_neg (not_not.mpr hopened), if_neg (by simp [htag]), if_pos hfull]
  | length =>
    obtain ⟨n, hline, hopened, htag, hroom, hlong⟩ := h
    rw [firstCheck_of_line hline, if_neg (not_not.mpr hopened), if_neg (by simp [htag]), if_neg (Nat.not_le.mpr hroom), if_pos hlong]
  | noRecord =>
    obtain ⟨n, hline, hopened, htag, hroom, hdeclared, hdata, hnone⟩ := h
    have hclaim : claimRecord .tx s = none := if_neg (Nat.not_lt.mpr hnone)
    rw [firstCheck_of_line hline, if_neg (not_not.mpr hopened), if_neg (by simp [htag]), if_neg (Nat.not_le.mpr hroom),
      if_neg (by omega), hclaim]
    rfl

theorem firstCheck_of_passes {g : Segment} {s : State} {n : LineNo} {i : Nat} (h : FirstPasses g s n) (hlt : i < 384)
    (hfree : s.frame i = none) (hbelow : ∀ j, j < i → (s.frame j).isSome = true) : firstCheck g s = .ok (n, i) := by
  have hclaim : claimRecord .tx s = some i := (if_pos h.record).trans (Table.lowestFree_eq_some hlt hfree hbelow)
  have hdeclared := h.declared
  have hdata := h.data
  rw [firstCheck_of_line h.line, if_neg (not_not.mpr h.opened), if_neg (by simp [h.tag]), if_neg (Nat.not_le.mpr h.room),
    if_neg (by omega), hclaim]
  rfl

/-- With fewer records than there are places one of them is free (R15). -/
theorem exists_lowestFree {s : State} (h : 0 < s.freeRecordCount) :
    ∃ i, i < 384 ∧ s.frame i = none ∧ ∀ j, j < i → (s.frame j).isSome = true := by
  have hfree : ∃ i, i < 384 ∧ s.frame i = none := by
    by_contra hall
    push Not at hall
    have hkeys : List.range 384 ⊆ s.store.frames.map Prod.fst := fun i hi =>
      Table.get_isSome_iff.mp (Option.isSome_iff_ne_none.mpr (hall i (List.mem_range.mp hi)))
    have hcount := (List.nodup_range.subperm hkeys).length_le
    simp only [List.length_range, List.length_map] at hcount
    simp only [State.freeRecordCount, Config.frameRecords] at h
    omega
  classical
  refine ⟨Nat.find hfree, (Nat.find_spec hfree).1, (Nat.find_spec hfree).2, fun j hj => ?_⟩
  have hnot := Nat.find_min hfree hj
  rw [Option.isSome_iff_ne_none]
  exact fun hnone => hnot ⟨hj.trans (Nat.find_spec hfree).1, hnone⟩

/-! ## Rejection (R29, R30) -/

theorem rejectFirst_of_slot {g : Segment} {s : State} {k : Nat} (status : RejectStatus) (hlt : k < 16)
    (hfree : Table.get s.rejects k = none) (hbelow : ∀ j, j < k → (Table.get s.rejects j).isSome = true) :
    rejectFirst g status s = some { s with
      rejects := Table.put s.rejects k { tag := g.tag, line := g.line.toNat, status := status, reported := false }
      completion := s.completion ++ [.reject k] } := by
  simp only [rejectFirst, Config.rejectSlots, Table.lowestFree_eq_some hlt hfree hbelow]
  rfl

theorem rejectFirst_of_full {g : Segment} {s : State} (status : RejectStatus)
    (hfull : ∀ k, k < 16 → (Table.get s.rejects k).isSome = true) : rejectFirst g status s = none := by
  have hnone : Table.lowestFree s.rejects Config.rejectSlots = none := by
    refine List.find?_eq_none.mpr fun k hk => ?_
    have hsome := hfull k (List.mem_range.mp hk)
    rw [Option.isSome_iff_ne_none] at hsome
    simpa using hsome
  rw [rejectFirst, hnone]
  rfl

/-! ## Storing and closing (R32, R33) -/

theorem storeData_spec {i : Nat} {s : State} {r : FrameRecord} (data : List Byte) (hr : s.frame i = some r) :
    let fits := r.stored + data.length ≤ r.declared.getD 1024 ∧ data.length ≤ 240
    (¬ fits → storeData i data s = (s, some .length)) ∧
    (fits → ∀ u, appendOctets .transmitData i data s = (u, false) → storeData i data s = (u, some .nospace)) ∧
    (fits → ∀ u, appendOctets .transmitData i data s = (u, true) → storeData i data s = (u, none)) := by
  have hshort (h : r.stored + data.length ≤ r.declared.getD 1024 ∧ data.length ≤ 240) :
      ¬ (r.bound < r.stored + data.length ∨ Config.maxSegment < data.length) := by
    simp only [FrameRecord.bound, Config.maxFrame, Config.maxSegment]
    omega
  simp only [storeData, hr]
  refine ⟨fun h => if_pos ?_, fun h u hu => (if_neg (hshort h)).trans (by rw [hu]),
    fun h u hu => (if_neg (hshort h)).trans (by rw [hu])⟩
  simp only [FrameRecord.bound, Config.maxFrame, Config.maxSegment]
  omega

theorem FrameRecord.lengthValid_iff (r : FrameRecord) :
    r.lengthValid = true ↔ r.stored ≠ 0 ∧ ∀ d, r.declared = some d → r.stored = d := by
  cases h : r.declared <;> simp [FrameRecord.lengthValid, h]

theorem closeFrame_of_frame {i : Nat} {s : State} {q : FrameRecord} (hq : s.frame i = some q) :
    (q.lengthValid = true → closeFrame i s =
      s.modFrame i (fun p => { p with complete := true, state := if p.state = .filling then .ready else p.state })) ∧
    (q.lengthValid = false → closeFrame i s = failFrame .length i (setComplete i s)) := by
  have hset : setComplete i s = s.putFrame i { q with complete := true } := State.modFrame_of_frame hq _
  have hvalid : FrameRecord.lengthValid { q with complete := true } = q.lengthValid := rfl
  simp only [closeFrame, hset, State.frame_putFrame_self, hvalid]
  refine ⟨fun h => ?_, fun h => by rw [h]; rfl⟩
  rw [h, State.modFrame_of_frame hq]
  by_cases hfilling : q.state = .filling
  · simp only [hfilling, if_true, State.putFrame_putFrame]
  · simp only [hfilling, if_true, if_false]

theorem storedAs_storeAndClose (i : Nat) (data : List Byte) (last : Bool) (s : State) :
    StoredAs i data last s (storeAndClose i data last s) := by
  intro r hr closed fits
  obtain ⟨hlength, hnospace, hstored⟩ := storeData_spec data hr
  refine ⟨fun hfits => ?_, fun hfits u hu => ?_, fun hfits u hu hlast => ?_, fun hfits u q hu hlast hq => ?_⟩
  · simp only [storeAndClose, hlength hfits]
    rfl
  · simp only [storeAndClose, hnospace hfits u hu]
    rfl
  · simp only [storeAndClose, hstored hfits u hu, hlast, Bool.false_eq_true, if_false]
  · have hclose : storeAndClose i data last s = closeFrame i u := by
      simp only [storeAndClose, hstored hfits u hu, hlast, if_true]
    rw [hclose, ← FrameRecord.lengthValid_iff, Bool.not_eq_true]
    refine ⟨(closeFrame_of_frame hq).1, fun hbad => ((closeFrame_of_frame hq).2 hbad).trans ?_⟩
    simp only [closed, hlast, if_true]
    rfl

theorem acceptFirst_eq (g : Segment) (n : LineNo) (i : Nat) (s : State) :
    acceptFirst g n i s = storeAndClose i g.data g.last (s.created g n i) := by
  have hline : Line.enqueue g.urgent i = fun l => { l with tx := { l.tx with
      urgent := if g.urgent then l.tx.urgent ++ [i] else l.tx.urgent
      normal := if g.urgent then l.tx.normal else l.tx.normal ++ [i] } } := by
    funext l
    cases hu : g.urgent <;> rfl
  simp only [acceptFirst, hline]
  rfl

/-! ## A stalled first segment (R30, R143) -/

theorem rejudgeSegment_of_stalled {atTick : Bool} {s : State} {payload : List Byte} (hstalled : s.link.headStalled = true)
    (hhead : s.link.inbound.head? = some { kind := .txSegment, payload := payload }) :
    rejudgeSegment atTick s = runSegment atTick payload s.offered := by
  have hstall : s.link.stalledHead = some { kind := .txSegment, payload := payload } := by
    simp only [HostLink.stalledHead, hstalled, if_true, hhead]
  simp only [rejudgeSegment, hstall]
  rfl

theorem rejudgeSegment_of_none {atTick : Bool} {s : State}
    (h : s.link.headStalled = false ∨ ∀ p, s.link.inbound.head? ≠ some { kind := .txSegment, payload := p }) :
    rejudgeSegment atTick s = s := by
  unfold rejudgeSegment
  split
  next p hstall =>
    unfold HostLink.stalledHead at hstall
    split at hstall
    next hstalled => exact (h.resolve_left (by simp [hstalled]) p hstall).elim
    next => cases hstall
  next => rfl

theorem stallHead_offered {s : State} (h : s.link.headStalled = true) : stallHead s.offered = s := by
  simp only [stallHead, State.offered, State.modLink, ← h]

theorem FirstPasses.offered {g : Segment} {s : State} {n : LineNo} (h : FirstPasses g s n) : FirstPasses g s.offered n :=
  ⟨h.line, h.opened, h.tag, h.room, h.declared, h.data, h.record⟩

/-- Settles O13: the checks of Table 2.1 decide, and the three outcomes are written out by the lemmas above. -/
theorem rejectedFirstSegment : Obligations.RejectedFirstSegment := by
  refine ⟨fun s payload g status hoffers hg hfirst hfails => ?rejected, fun s payload g n i hoffers hg hfirst hpasses hlt hfree hbelow =>
    ?accepted, fun atTick s payload g hstalled hhead hg hfirst => ?again, fun atTick s hnot => rejudgeSegment_of_none hnot⟩
  case rejected =>
    have hrun := (runSegment_of_first (atTick := false) hg hfirst).2 status (firstCheck_of_fails hfails)
    rw [hoffers.exec_txSegment, hrun]
    refine ⟨fun k hlt hfree hbelow => ?_, fun hfull => ?_⟩
    · rw [rejectFirst_of_slot status hlt hfree hbelow]
      rfl
    · rw [rejectFirst_of_full status hfull]
      rfl
  case accepted =>
    refine ⟨_, storedAs_storeAndClose _ _ _ _, ?_⟩
    rw [hoffers.exec_txSegment,
      (runSegment_of_first (atTick := false) hg hfirst).1 n i (firstCheck_of_passes hpasses hlt hfree hbelow), acceptFirst_eq]
    rfl
  case again =>
    rw [rejudgeSegment_of_stalled hstalled hhead]
    obtain ⟨haccept, hreject⟩ := runSegment_of_first (atTick := atTick) (s := s.offered) hg hfirst
    refine ⟨fun status k hfails hlt hfree hbelow => ?_, fun status hfails hfull => ?_,
      fun n i hpasses hlt hfree hbelow => ⟨_, storedAs_storeAndClose _ _ _ _, ?_⟩, fun hrunning => ?_⟩
    · rw [hreject status (firstCheck_of_fails hfails), rejectFirst_of_slot (s := s.offered) status hlt hfree hbelow]
      rfl
    · rw [hreject status (firstCheck_of_fails hfails), rejectFirst_of_full (s := s.offered) status hfull]
      exact stallHead_offered hstalled
    · rw [haccept n i (firstCheck_of_passes hpasses.offered hlt hfree hbelow), acceptFirst_eq]
    · rw [rejudgeSegment_of_stalled hstalled hhead]
      exact State.Offers.exec_txSegment ⟨hrunning, rfl, hhead⟩

/-! ## Later segments (Table 2.2) -/

theorem tagLine_of_frame {s : State} {tag i : Nat} {r : FrameRecord} (htag : Table.get s.tags tag = some i)
    (hr : s.frame i = some r) : tagLine s tag = some r.line := by
  simp [tagLine, htag, hr]

/-- A later segment acts on the frame of its tag by the frame's state. -/
theorem laterSegment_of_frame {g : Segment} {s : State} {i : Nat} {r : FrameRecord} (htag : Table.get s.tags g.tag = some i)
    (hr : s.frame i = some r) :
    (r.state = .filling → laterSegment g s = storeAndClose i g.data g.last s) ∧
    (r.state = .sending → laterSegment g s =
      if r.outcome.isSome then (if g.last then setComplete i s else s)
      else if r.complete then (if g.data = [] then s else failFrame .length i s)
      else storeAndClose i g.data g.last s) ∧
    (r.state = .ready → laterSegment g s = if g.data = [] then s else failFrame .length i s) ∧
    (r.state = .discarding → laterSegment g s = if g.last then enterDone .completed i (setComplete i s) else s) := by
  simp only [laterSegment, htag, hr]
  refine ⟨fun h => ?_, fun h => ?_, fun h => ?_, fun h => ?_⟩ <;> rw [h]

/-- Settles O15: the row by the state of the frame, and the storing and closing that two of the rows share. -/
theorem laterSegmentRows : Obligations.LaterSegmentRows := by
  refine ⟨fun s payload hoffers hstray => ?stray, fun s payload g i r hoffers hg hfirst htag hr => ?rows⟩
  case stray =>
    rw [hoffers.exec_txSegment]
    rcases hstray with hshort | ⟨g, hg, hfirst, htag⟩
    · simp only [runSegment, (segmentOf_eq_none_iff payload).mpr hshort]
      rfl
    · rw [runSegment_of_later hg hfirst]
      simp only [tagLine, laterSegment, htag]
      rfl
  case rows =>
    intro gives closed takesData fits isFull
    have hexec := hoffers.exec_txSegment
    rw [runSegment_of_later hg hfirst, tagLine_of_frame htag hr] at hexec
    have hgives {u : State} (hu : laterSegment g s = u) : gives u := by
      rw [hu] at hexec
      exact hexec
    obtain ⟨hfilling, hsending, hready, hdiscarding⟩ := laterSegment_of_frame htag hr
    have hstore (h : takesData) : laterSegment g s = storeAndClose i g.data g.last s := by
      rcases h with hstate | ⟨hstate, hout, hcomplete⟩
      · exact hfilling hstate
      · rw [hsending hstate, hout, hcomplete]
        rfl
    have hfull (h : isFull) : laterSegment g s = if g.data = [] then s else failFrame .length i s := by
      rcases h with hstate | ⟨hstate, hcomplete, hout⟩
      · exact hready hstate
      · rw [hsending hstate, hout, hcomplete]
        rfl
    obtain ⟨hlength, hnospace, hstored, hlast⟩ := storedAs_storeAndClose i g.data g.last s r hr
    refine ⟨fun h hfits => hgives ((hstore h).trans (hlength hfits)),
      fun h hfits u hu => hgives ((hstore h).trans (hnospace hfits u hu)),
      fun h hfits u hu hl => hgives ((hstore h).trans (hstored hfits u hu hl)),
      fun h hfits u q hu hl hq => ?_, fun hs hout => hgives ?_, fun h hdata => hgives ((hfull h).trans (if_pos hdata)),
      fun h hdata => hgives ((hfull h).trans (if_neg hdata)), fun hs hl => hgives ?_, fun hs hl => hgives ?_⟩
    · obtain ⟨hvalid, hinvalid⟩ := hlast hfits u q hu hl hq
      exact ⟨fun hv => hgives ((hstore h).trans (hvalid hv)), fun hv => hgives ((hstore h).trans (hinvalid hv))⟩
    · rw [hsending hs, if_pos (Option.isSome_iff_ne_none.mpr hout)]
      rfl
    · rw [hdiscarding hs, hl]
      rfl
    · have hset : setComplete i s = s.putFrame i { r with complete := true } := State.modFrame_of_frame hr _
      have hframe : (s.putFrame i { r with complete := true }).frame i = some { r with complete := true } :=
        State.frame_putFrame_self ..
      rw [hdiscarding hs, hl, hset]
      simp only [if_true]
      rw [enterDone_of_frame .completed hframe]
      refine congrArg (fun t => State.modLine t r.line (Line.countDone .completed)) ?_
      have hlisted : (s.listed r.tag i).frame i = some r := hr
      refine Eq.trans ?_ (State.modFrame_of_frame hlisted _).symm
      simp only [State.putFrame, State.listed, Table.put_put]

/-! ## A whole frame in one segment (R28, R32, R33) -/

/-- The cells that n more octets take behind k octets (R3). -/
def cellsFor (k n : Nat) : Nat := (k + n + 31) / 32 - (k + 31) / 32

theorem FrameRecord.full_iff {r : FrameRecord} (h : r.chainKept) :
    (∀ c, r.chain.getLast? = some c → c.fill = 32) ↔ r.stored % 32 = 0 := by
  rcases r.chainKept_iff.mp h with ⟨hnil, hzero⟩ | ⟨front, c, hchain, -, hlow, hhigh, hstored⟩
  · simp [hnil, hzero]
  · simp only [hchain, List.getLast?_append, List.getLast?_singleton, Option.some_or, Option.some.injEq, forall_eq', hstored]
    omega

/-- An append that the pool can serve above the reserve floor, and how far it draws on the pool (R3, R7). -/
theorem exists_appendOctet {i : Nat} {s : State} {r : FrameRecord} (b : Byte) (hcells : s.cellsKept) (hchains : s.chainsKept)
    (hr : s.frame i = some r) (hpool : s.reserveFloor + cellsFor r.stored 1 ≤ s.store.freeCells.length) :
    ∃ t chain cell position, appendOctet .transmitData i b s = some t ∧
      Appended i b s t (s.store.freeCells.drop (cellsFor r.stored 1)) r chain cell position := by
  have hkept : r.chainKept := hchains _ (State.mem_of_frame hr)
  have hsome : ∃ t, appendOctet .transmitData i b s = some t := by
    rw [← Option.isSome_iff_exists, Option.isSome_iff_ne_none, Ne, appendOctet_eq_none_iff b hkept hr, claimCell_eq_none_iff,
      FrameRecord.full_iff hkept]
    rintro ⟨hfull, hfew | hnil⟩
    · simp only [cellsFor] at hpool
      omega
    · simp only [hnil, List.length_nil, cellsFor] at hpool
      omega
  obtain ⟨t, ht⟩ := hsome
  by_cases hfull : ∀ c, r.chain.getLast? = some c → c.fill = 32
  · obtain ⟨head, rest, hfree, happended⟩ := appended_of_full hcells hkept hr ht hfull
    have hone : cellsFor r.stored 1 = 1 := by
      have := (FrameRecord.full_iff hkept).mp hfull
      simp only [cellsFor]
      omega
    rw [hone, hfree]
    exact ⟨t, _, _, _, ht, happended⟩
  · have hnone : cellsFor r.stored 1 = 0 := by
      have := (FrameRecord.full_iff hkept).not.mp hfull
      simp only [cellsFor]
      omega
    push Not at hfull
    obtain ⟨c, hlast, hne⟩ := hfull
    have hle := FrameRecord.fill_le_of_chainKept hkept c (List.mem_of_getLast? hlast)
    rw [hnone, List.drop_zero]
    exact ⟨t, _, _, _, ht, appended_of_room hcells hkept hr ht hlast (by omega)⟩

/-- With cells enough above the reserve floor every octet is stored, in the head cells of the pool (R3, R32). -/
theorem appendOctets_of_cells {i : Nat} (data : List Byte) {s : State} {r : FrameRecord} (hcells : s.cellsKept)
    (hchains : s.chainsKept) (hr : s.frame i = some r)
    (hpool : s.reserveFloor + cellsFor r.stored data.length ≤ s.store.freeCells.length) :
    ∃ u chain, appendOctets .transmitData i data s = (u, true) ∧ u = { s with store := u.store } ∧
      u.frame i = some { r with chain := chain, stored := r.stored + data.length } ∧
      chainOctets u.store.octets chain = chainOctets s.store.octets r.chain ++ data ∧
      u.store.freeCells = s.store.freeCells.drop (cellsFor r.stored data.length) ∧
      ∀ j q, j ≠ i → s.frame j = some q → u.frame j = some q ∧ frameOctets u q = frameOctets s q := by
  induction data generalizing s r with
  | nil => exact ⟨s, r.chain, rfl, rfl, hr, by simp, by simp [cellsFor], fun j q _ hq => ⟨hq, rfl⟩⟩
  | cons b data ih =>
    simp only [List.length_cons] at hpool ⊢
    have hsplit : cellsFor r.stored (data.length + 1) = cellsFor r.stored 1 + cellsFor (r.stored + 1) data.length := by
      simp only [cellsFor]
      omega
    obtain ⟨t, chain, cell, position, ht, happended⟩ := exists_appendOctet b hcells hchains hr (by omega)
    obtain ⟨hstate, hfree, -, hrecord, -, hbehind, -, -⟩ := id happended
    have hfloor : t.reserveFloor = s.reserveFloor := (lineSide_appendOctet ht).reserveFloor
    obtain ⟨u, chain', hu, hustate, hurecord, hubehind, hufree, huothers⟩ :=
      ih ((StoreMove.append ht).cellsKept hcells) ((StoreMove.append ht).chainsKept hchains) hrecord (by
        rw [hfloor, hfree, List.length_drop]
        simp only
        omega)
    refine ⟨u, chain', ?_, ?_, ?_, ?_, ?_, fun j q hj hq => ?_⟩
    · simp only [appendOctets, ht, hu]
    · rw [hustate, hstate]
    · rw [hurecord]
      simp only [Nat.add_assoc, Nat.add_comm 1]
    · rw [hubehind, hbehind, List.append_assoc, List.singleton_append]
    · rw [hufree, hfree, List.drop_drop, hsplit]
    · obtain ⟨hjt, hoctets⟩ := happended.other hchains hj hq
      obtain ⟨hju, huoctets⟩ := huothers j q hj hjt
      exact ⟨hju, huoctets.trans hoctets⟩

/-- Settles O14: the segment is accepted, every octet is stored, and the closing finds the length valid. -/
theorem wholeFrameSegmentIsStored : Obligations.WholeFrameSegmentIsStored := by
  intro s payload g n hoffers hg hfirst hlast hline hopened htag hroom hrecord hdata hshort hdeclared hcells hchains hpool
  obtain ⟨i, hlt, hfree, hbelow⟩ := exists_lowestFree (Nat.zero_lt_of_lt hrecord)
  have hpasses : FirstPasses g s n := ⟨hline, hopened, htag, hroom, by omega, hshort, hrecord⟩
  have hexec := hoffers.exec_txSegment
  rw [(runSegment_of_first (atTick := false) hg hfirst).1 n i (firstCheck_of_passes hpasses hlt hfree hbelow), acceptFirst_eq] at hexec
  have hmove : StoreMove s (s.putFrame i (FrameRecord.newTx n g)) := .create s hfree
  have hnew : (s.created g n i).frame i = some (FrameRecord.newTx n g) := State.frame_putFrame_self ..
  obtain ⟨u, chain, hu, hustate, hurecord, hubehind, hufree, huothers⟩ :=
    appendOctets_of_cells g.data (s := s.created g n i) (hmove.cellsKept hcells) (hmove.chainsKept hchains) hnew
      (show s.reserveFloor + cellsFor 0 g.data.length ≤ s.store.freeCells.length by simp only [cellsFor]; omega)
  have hsettled : storeAndClose i g.data g.last (s.created g n i) =
      u.modFrame i (fun p => { p with complete := true, state := if p.state = .filling then .ready else p.state }) := by
    have hfits : (FrameRecord.newTx n g).stored + g.data.length ≤ (FrameRecord.newTx n g).declared.getD 1024 ∧
        g.data.length ≤ 240 := by
      refine ⟨?_, hshort⟩
      rcases hdeclared with hzero | hlength
      · simp only [FrameRecord.newTx, hzero, if_true, Option.getD_none]
        omega
      · simp only [FrameRecord.newTx, hlength]
        split
        · simp only [Option.getD_none]; omega
        · simp only [Option.getD_some]; omega
    refine ((storedAs_storeAndClose i g.data g.last (s.created g n i) _ hnew).2.2.2 hfits u _ hu hlast hurecord).1 ⟨?_, ?_⟩
    · simpa [FrameRecord.newTx] using hdata
    · rcases hdeclared with hzero | hlength
      · simp [FrameRecord.newTx, hzero]
      · simp [FrameRecord.newTx, hlength]
  rw [hsettled, State.modFrame_of_frame hurecord] at hexec
  have htags : u.tags = Table.put s.tags g.tag i := by rw [hustate]; rfl
  have hcompletion : u.completion = s.completion := by rw [hustate]; rfl
  have hreplies : u.replies = s.replies := by rw [hustate]; rfl
  have hlines : u.lines = (s.created g n i).lines := by rw [hustate]
  refine ⟨i, _, _, hexec, hfree, hbelow, State.frame_putFrame_self .., rfl, rfl, rfl, rfl, rfl, rfl, rfl, rfl, rfl, rfl, rfl,
    Nat.zero_add _, hubehind, ?_, htags, hcompletion, hreplies, ?_, ?_, fun m hm => ?_, fun j q hj hq => ?_⟩
  · rw [putFrame_freeCells, hufree]
    simp only [FrameRecord.newTx, cellsFor, Nat.zero_add]
    rfl
  · rw [hustate]
    exact ⟨rfl, rfl, rfl, rfl, rfl, rfl, rfl, rfl, rfl⟩
  · rw [State.line_putFrame, State.line_of_lines_eq hlines]
    exact State.line_modLine_self ..
  · rw [State.line_putFrame, State.line_of_lines_eq hlines]
    exact State.line_modLine_of_ne _ _ hm
  · obtain ⟨hju, hoctets⟩ := huothers j q hj ((State.frame_putFrame_of_ne _ _ hj).trans hq)
    exact ⟨(State.frame_putFrame_of_ne _ _ hj).trans hju, hoctets⟩

end Sys2Proof.Machine

end

section
-- The proofs below are checked one after another: in parallel each waits for the others with a thread of its own.
set_option Elab.async false

/-! PROOFS. The selection judgment (3.2, 3.3), the data octet boundary (3.7), the end of a frame (3.9), the expiries of a line
(2.6) and of its drain timer (6.4). -/

namespace Sys2Proof.Machine

/-! ## The candidate (R53, R54) -/

theorem eligibleFrame_iff (l : Line) (r : FrameRecord) : eligibleFrame l r = true ↔ Eligible l r := by
  cases hstate : r.state <;> cases hsync : l.isSync <;> simp [eligibleFrame, Eligible, hstate, hsync, and_assoc]

theorem eligibleHead_eq_some_iff (s : State) (l : Line) (queue : List Nat) (i : Nat) :
    eligibleHead s l queue = some i ↔ EligibleHead s l queue i := by
  cases queue with
  | nil => simp [eligibleHead, EligibleHead]
  | cons j rest =>
    cases hr : s.frame j with
    | none =>
      simp only [eligibleHead, hr, reduceCtorEq, EligibleHead, List.head?_cons, Option.some.injEq, false_iff]
      rintro ⟨r, rfl, hsome, -⟩
      rw [hr] at hsome
      cases hsome
    | some r =>
      simp only [eligibleHead, hr, Option.ite_none_right_eq_some, eligibleFrame_iff, Option.some.injEq, EligibleHead, List.head?_cons]
      constructor
      · rintro ⟨heligible, rfl⟩
        exact ⟨r, rfl, hr, heligible⟩
      · rintro ⟨q, rfl, hq, heligible⟩
        obtain rfl : r = q := Option.some.inj (hr.symm.trans hq)
        exact ⟨heligible, rfl⟩

theorem candidateFrame_eq_some_iff (s : State) (l : Line) (i : Nat) : candidateFrame s l = some i ↔ IsCandidate s l i := by
  simp only [candidateFrame, IsCandidate, ← eligibleHead_eq_some_iff]
  cases eligibleHead s l l.tx.urgent <;> simp

/-! ## The selection judgment -/

/-- With the receiver not in a frame the mute of R58 is that of the statement. -/
theorem Line.mute_eq_mutedRx {l : Line} (h : l.halfDuplex = true → l.rx.state ≠ .assembling) :
    l.mute = { l with rx := l.mutedRx } := by
  unfold Line.mute Line.mutedRx
  cases hhalf : l.halfDuplex with
  | false => simp
  | true =>
    have hnot := h hhalf
    cases hstate : l.rx.state <;> simp_all [Receiver.enter, RxState.abandons]

theorem Line.not_assembling_of_held {l : Line} (h : l.held = false) : l.halfDuplex = true → l.rx.state ≠ .assembling := by
  intro hhalf hstate
  simp [Line.held, hhalf, hstate] at h

theorem selectNext_of_other {s : State} {n : LineNo} (atTick : Bool) (hidle : (s.line n).tx.state ≠ .idle)
    (hheld : (s.line n).tx.state ≠ .held) : selectNext atTick n s = s :=
  if_neg (not_or.mpr ⟨hidle, hheld⟩)

theorem selectNext_of_break {s : State} {n : LineNo} {b : PendingBreak} (atTick : Bool)
    (hstate : (s.line n).tx.state = .idle ∨ (s.line n).tx.state = .held) (hbreak : (s.line n).tx.pendingBreak = some b) :
    selectNext atTick n s =
      if (s.line n).held then s.modLine n (Line.txEnter .held) else s.modLine n (beginBreak atTick b.duration) := by
  simp only [selectNext, if_pos hstate, hbreak]

theorem selectNext_of_no_break {s : State} {n : LineNo} (atTick : Bool)
    (hstate : (s.line n).tx.state = .idle ∨ (s.line n).tx.state = .held) (hbreak : (s.line n).tx.pendingBreak = none) :
    selectNext atTick n s =
      (candidateFrame s (s.line n)).elim (s.modLine n (Line.txEnter .idle)) (fun i =>
        if (s.line n).clearGate || (s.line n).held then s.modLine n (Line.txEnter .held) else takeFrame n i s) := by
  simp only [selectNext, if_pos hstate, hbreak]
  cases candidateFrame s (s.line n) <;> rfl

/-- Settles O17: a pending break first, then the candidate, each behind its gate. -/
theorem selectionJudgment : Obligations.SelectionJudgment := by
  refine ⟨fun _ _ _ => rfl, fun atTick n s => ?_⟩
  intro l enters
  refine ⟨selectNext_of_other atTick, fun hstate => ⟨fun b hb hheld => ?_, fun b hb hheld => ?_, fun hb hnone => ?_,
    fun i hb hi => ⟨fun hgate => ?_, fun hclear hheld => ?_⟩⟩⟩
  · exact (selectNext_of_break atTick hstate hb).trans (if_pos hheld)
  · refine ((selectNext_of_break atTick hstate hb).trans (if_neg (by simp [hheld, l]))).trans (State.modLine_congr ?_)
    exact Line.mute_eq_mutedRx (Line.not_assembling_of_held hheld)
  · have hcandidate : candidateFrame s l = none :=
      Option.eq_none_iff_forall_ne_some.mpr fun i hi => hnone i ((candidateFrame_eq_some_iff s l i).mp hi)
    refine (selectNext_of_no_break atTick hstate hb).trans ?_
    rw [hcandidate]
    rfl
  · refine (selectNext_of_no_break atTick hstate hb).trans ?_
    rw [(candidateFrame_eq_some_iff s l i).mpr hi]
    exact if_pos (by simpa [Line.clearGate, l] using hgate)
  · refine (selectNext_of_no_break atTick hstate hb).trans ?_
    rw [(candidateFrame_eq_some_iff s l i).mpr hi]
    have hopen : ¬ (((s.line n).clearGate || (s.line n).held) = true) := by
      simp only [Line.clearGate, Bool.or_eq_true, Bool.and_eq_true, Bool.not_eq_true', not_or]
      exact ⟨hclear, by simp [hheld, l]⟩
    refine (if_neg hopen).trans ?_
    dsimp only [takeFrame]
    refine State.modLine_congr ?_
    rw [State.line_modFrame]
    exact Line.mute_eq_mutedRx (Line.not_assembling_of_held hheld)

/-! ## A data octet boundary (Table 3.3) -/

theorem KeepsBut.modLine {n : LineNo} {i : Nat} {s u : State} (h : KeepsBut n i s u) (f : Line → Line) :
    KeepsBut n i s (u.modLine n f) :=
  { toLineSide := h.toLineSide.trans (lineSide_modLine ..)
    lines := fun m hm => (State.line_modLine_of_ne _ _ hm).trans (h.lines m hm)
    frames := h.frames, freeCells := h.freeCells, octets := h.octets, tags := h.tags, completion := h.completion
    replies := h.replies }

theorem KeepsBut.refl (n : LineNo) (i : Nat) (s : State) : KeepsBut n i s s :=
  { toLineSide := LineSide.refl s, lines := fun _ _ => rfl, frames := fun _ _ => rfl, freeCells := rfl, octets := rfl, tags := rfl
    completion := rfl, replies := rfl }

theorem KeepsBut.trans {n : LineNo} {i : Nat} {s t u : State} (h : KeepsBut n i s t) (k : KeepsBut n i t u) : KeepsBut n i s u :=
  { toLineSide := h.toLineSide.trans k.toLineSide, lines := fun m hm => (k.lines m hm).trans (h.lines m hm)
    frames := fun j hj => (k.frames j hj).trans (h.frames j hj), freeCells := k.freeCells.trans h.freeCells
    octets := k.octets.trans h.octets, tags := k.tags.trans h.tags, completion := k.completion.trans h.completion
    replies := k.replies.trans h.replies }

/-- The octet in progress has been put on the line and is counted (R63). -/
def FrameRecord.counted (octet : Option Byte) (r : FrameRecord) : FrameRecord :=
  { r with sentCount := if octet.isSome then r.sentCount + 1 else r.sentCount }

/-- The state in which the octet in progress has been counted, as a boundary finds it (R63). -/
def countOctet (n : LineNo) (i : Nat) (s : State) : State :=
  if (s.line n).tx.octet.isSome then s.modFrame i (fun r => { r with sentCount := r.sentCount + 1 }) else s

theorem frame_countOctet {n : LineNo} {i : Nat} {s : State} {r : FrameRecord} (hr : s.frame i = some r) :
    (countOctet n i s).frame i = some (r.counted (s.line n).tx.octet) := by
  unfold countOctet FrameRecord.counted
  split <;> simp [hr]

theorem keepsBut_countOctet (n : LineNo) (i : Nat) (s : State) : KeepsBut n i s (countOctet n i s) := by
  unfold countOctet
  split
  · unfold State.modFrame
    split
    · exact KeepsBut.refl n i s
    · exact keepsBut_putFrame ..
  · exact KeepsBut.refl n i s

theorem lines_countOctet (n : LineNo) (i : Nat) (s : State) : (countOctet n i s).lines = s.lines := by
  unfold countOctet State.modFrame
  split
  · split <;> rfl
  · rfl

/-- A data octet boundary of an allocated frame: the row of Table 3.3 that applies, behind the count. -/
theorem octetBoundary_of_frame {s : State} {n : LineNo} {i : Nat} {r : FrameRecord} (hr : s.frame i = some r) :
    let l := s.line n
    let t := countOctet n i s
    octetBoundary n i s =
      if r.outcome.isSome then t.modLine n (beginTrailer (~~~ l.tx.crc))
      else if l.tx.readPos < r.stored then
        t.modLine n (fun k => { k with tx := { k.tx with
          octet := some ((frameOctets s r).getD l.tx.readPos 0), readPos := k.tx.readPos + 1
          crc := lineCrcOctet k.tx.crc ((frameOctets s r).getD l.tx.readPos 0) } })
      else if r.complete then t.modLine n (beginTrailer l.tx.crc)
      else (t.putFrame i ((r.counted l.tx.octet).fixOutcome .underrun)).modLine n (beginTrailer (~~~ l.tx.crc)) := by
  intro l t
  have hframe : t.frame i = some (r.counted l.tx.octet) := frame_countOctet hr
  have hoctet : frameOctetAt t (r.counted l.tx.octet) l.tx.readPos = (frameOctets s r).getD l.tx.readPos 0 := by
    simp only [frameOctetAt, frameOctets_eq, (keepsBut_countOctet n i s).octets, t]
    rfl
  unfold octetBoundary
  simp only [← hoctet]
  rw [show (if l.tx.octet.isSome then s.modFrame i (fun r => { r with sentCount := r.sentCount + 1 }) else s) = t from rfl, hframe]
  rfl

/-- Settles O18: the octet is counted, and then the row by the outcome, the read position and the completeness. -/
theorem octetBoundaryRows : Obligations.OctetBoundaryRows := by
  intro n i s r hrunning hstate hcurrent hr l sent
  refine ⟨octetBoundary n i s, ?_, ?_⟩
  · have hevent := lineEvent_of_due (due := fun l => decide (l.tx.state = .data)) hrunning (decide_eq_true hstate) false
      (onCurrent n (octetBoundary n))
    rw [onCurrent_of_current hcurrent] at hevent
    exact congrArg _ hevent
  · have hkeeps := keepsBut_countOctet n i s
    have hline (f : Line → Line) : ((countOctet n i s).modLine n f).line n = f l := by
      rw [State.line_modLine_self, State.line_of_lines_eq (lines_countOctet n i s)]
    have hframe : (countOctet n i s).frame i = some { r with sentCount := sent } := frame_countOctet hr
    have hrows := octetBoundary_of_frame (n := n) hr
    dsimp only at hrows
    rw [hrows]
    by_cases hout : r.outcome = none
    · rw [if_neg (by simp [hout])]
      by_cases hmore : (s.line n).tx.readPos < r.stored
      · rw [if_pos hmore]
        exact ⟨hkeeps.modLine _, fun o ho => absurd (ho.symm.trans hout) nofun, fun _ _ => ⟨hframe, hline _⟩,
          fun _ hend => absurd hmore (Nat.not_lt.mpr hend), fun _ hend => absurd hmore (Nat.not_lt.mpr hend)⟩
      · rw [if_neg hmore]
        by_cases hcomplete : r.complete = true
        · rw [if_pos hcomplete]
          exact ⟨hkeeps.modLine _, fun o ho => absurd (ho.symm.trans hout) nofun, fun _ hless => absurd hless hmore,
            fun _ _ _ => ⟨hframe, hline _⟩, fun _ _ hnot => absurd (hnot.symm.trans hcomplete) nofun⟩
        · rw [if_neg hcomplete]
          refine ⟨(hkeeps.trans (keepsBut_putFrame ..)).modLine _, fun o ho => absurd (ho.symm.trans hout) nofun,
            fun _ hless => absurd hless hmore, fun _ _ h => absurd h hcomplete, fun _ _ _ => ⟨?_, hline _⟩⟩
          refine (State.frame_putFrame_self ..).trans ?_
          simp only [FrameRecord.fixOutcome, FrameRecord.counted, hout]
          rfl
    · rw [if_pos (Option.isSome_iff_ne_none.mpr hout)]
      exact ⟨hkeeps.modLine _, fun o _ => ⟨hframe, hline _⟩, fun h => absurd h hout, fun h => absurd h hout,
        fun h => absurd h hout⟩

/-! ## The end of a frame (Table 3.5) -/

/-- TX_FRAMES or TX_ABORTS counts the end of a frame with this outcome (R65). -/
def Line.countEnd (o : Option FrameOutcome) (l : Line) : Line :=
  { l with counters :=
      if o = none then { l.counters with txFrames := satInc l.counters.txFrames }
      else { l.counters with txAborts := satInc l.counters.txAborts } }

/-- The tally of an entry into DONE at the end of a frame (Table 6.5). -/
def Line.endTally (l : Line) : DoneTally := if l.flushing then .flushed else .completed

/-- The chain is released and the transmitter holds the frame no longer (R65 steps 1 and 2). -/
theorem releaseChain_gapBehindFrame {s : State} {i : Nat} {r : FrameRecord} (n : LineNo) (hr : s.frame i = some r) :
    releaseChain i (s.modLine n Line.gapBehindFrame) =
      ((s.pooled r.chain).putFrame i { r with chain := [], stored := 0 }).modLine n Line.gapBehindFrame := by
  have hgap : (s.modLine n Line.gapBehindFrame).frame i = some r := hr
  rw [releaseChain_of_frame hgap]
  rfl

/-- A record with its chain released enters DONE, and its line counts the end. -/
theorem enterDone_ended (how : DoneTally) (s : State) (i : Nat) (r : FrameRecord) (f g : Line → Line) :
    (enterDone how i ((s.putFrame i r).modLine r.line f)).modLine r.line g =
      ((s.listed r.tag i).putFrame i { r with state := .done }).modLine r.line (fun l => g ((f l).countDone how)) := by
  have hframe : ((s.putFrame i r).modLine r.line f).frame i = some r := State.frame_putFrame_self ..
  rw [enterDone_of_frame how hframe]
  simp [State.putFrame, State.listed, Table.put_put, State.modLine, State.line]

/-- The two ways in which a frame ends on its line: DONE, or DISCARDING while segments of it are still to come (R65). -/
theorem endFrame_of_frame {s : State} {i : Nat} {r : FrameRecord} (hr : s.frame i = some r)
    (hcomplete : r.outcome = none → r.complete = true) :
    let flush := (s.line r.line).flushing = true
    (r.complete = true ∨ r.outcome = some .flushed ∨ flush → endFrame r.line i s =
      (((s.pooled r.chain).listed r.tag i).putFrame i
        { r with chain := [], stored := 0, state := .done, outcome := some (r.outcome.getD .ok) }).modLine r.line
          (fun l => (l.gapBehindFrame.countDone (s.line r.line).endTally).countEnd r.outcome)) ∧
    (r.complete = false → r.outcome ≠ some .flushed → ¬ flush → endFrame r.line i s =
      ((s.pooled r.chain).putFrame i { r with chain := [], stored := 0, state := .discarding }).modLine r.line
        (fun l => l.gapBehindFrame.countEnd r.outcome)) := by
  intro flush
  have hs2 := releaseChain_gapBehindFrame r.line hr
  have hframe : (releaseChain i (s.modLine r.line Line.gapBehindFrame)).frame i = some { r with chain := [], stored := 0 } := by
    rw [hs2]; exact State.frame_putFrame_self ..
  have hflushing : ((releaseChain i (s.modLine r.line Line.gapBehindFrame)).line r.line).flushing = (s.line r.line).flushing := by
    rw [hs2, State.line_modLine_self]; rfl
  have hgap : s.modLine r.line (fun l => { l with tx := { l.tx with
      current := none, octet := none, gapAfterBreak := false, state := .gap } }) = s.modLine r.line Line.gapBehindFrame := rfl
  have hnone (hout : r.outcome = none) : endFrame r.line i s =
      (enterDone (s.line r.line).endTally i ((releaseChain i (s.modLine r.line Line.gapBehindFrame)).putFrame i
        (FrameRecord.fixOutcome { r with chain := [], stored := 0 } .ok))).modLine r.line (Line.countEnd r.outcome) := by
    unfold endFrame
    simp only [hgap, hframe, hflushing, hout]
    rfl
  have hsome {o : FrameOutcome} (hout : r.outcome = some o) : endFrame r.line i s =
      (if o = .flushed ∨ r.complete = true then
          enterDone (s.line r.line).endTally i (releaseChain i (s.modLine r.line Line.gapBehindFrame))
        else enterDiscarding i (releaseChain i (s.modLine r.line Line.gapBehindFrame))).modLine r.line
          (Line.countEnd r.outcome) := by
    unfold endFrame
    simp only [hgap, hframe, hflushing, hout]
    rfl
  have hdone {q : FrameRecord} (how : DoneTally) (hline : q.line = r.line) (htag : q.tag = r.tag) (o : Option FrameOutcome) :
      (enterDone how i (((s.pooled r.chain).putFrame i q).modLine r.line Line.gapBehindFrame)).modLine r.line (Line.countEnd o) =
        (((s.pooled r.chain).listed r.tag i).putFrame i { q with state := .done }).modLine r.line
          (fun l => (l.gapBehindFrame.countDone how).countEnd o) := by
    rw [← hline, ← htag, enterDone_ended]
  refine ⟨fun hways => ?_, fun hmore hnot hmode => ?_⟩
  · cases hout : r.outcome with
    | none =>
      have hmoved := hdone (q := FrameRecord.fixOutcome { r with chain := [], stored := 0 } .ok) (s.line r.line).endTally rfl rfl
        r.outcome
      rw [hnone hout, hs2, State.putFrame_modLine, State.putFrame_putFrame, hmoved]
      simp only [FrameRecord.fixOutcome, hout]
    | some o =>
      have hmoved := hdone (q := { r with chain := [], stored := 0 }) (s.line r.line).endTally rfl rfl r.outcome
      rw [hsome hout, hs2]
      by_cases hat : o = .flushed ∨ r.complete = true
      · rw [if_pos hat, hmoved]
        simp only [hout, Option.getD_some]
      · have hflush : flush := by
          rw [hout] at hways
          rcases hways with h | h | h
          · exact absurd (.inr h) hat
          · exact absurd (.inl (Option.some.inj h)) hat
          · exact h
        have htally : (s.line r.line).endTally = .flushed := if_pos hflush
        rw [if_neg hat, enterDiscarding_of_frame (hs2 ▸ hframe), if_pos (by rw [← hs2, hflushing]; exact hflush)]
        rw [htally] at hmoved ⊢
        rw [hmoved]
        simp only [hout, Option.getD_some]
  · cases hout : r.outcome with
    | none => exact absurd (hmore.symm.trans (hcomplete hout)) nofun
    | some o =>
      have hat : ¬ (o = .flushed ∨ r.complete = true) := by
        rw [hout] at hnot
        simpa [hmore] using hnot
      rw [hsome hout, hs2, if_neg hat, enterDiscarding_of_frame (hs2 ▸ hframe), if_neg (by rw [← hs2, hflushing]; exact hmode),
        State.putFrame_modLine, State.putFrame_putFrame, State.modLine_modLine]
      simp only [hout]

theorem Line.countDone_endTally_close (l k : Line) (hstate : l.state = k.state) :
    (l.countDone k.endTally).close =
      if k.state = .closing then
        if k.close.txMode = .flush then { l.close with flushed := satInc l.close.flushed }
        else { l.close with completed := satInc l.close.completed }
      else l.close := by
  by_cases hclosing : k.state = .closing <;> by_cases hmode : k.close.txMode = .flush <;>
    simp [Line.countDone, Line.endTally, Line.flushing, hstate, hclosing, hmode]

theorem Line.countDone_eq (how : DoneTally) (l : Line) : l.countDone how = { l with close := (l.countDone how).close } := by
  unfold Line.countDone
  split
  · cases how <;> rfl
  · rfl

/-- What the end of a frame does to its line. -/
theorem Line.ended_eq (how : DoneTally) (o : Option FrameOutcome) (l : Line) :
    (l.gapBehindFrame.countDone how).countEnd o = { l with
      tx := l.gapBehindFrame.tx, counters := (l.countEnd o).counters, close := (l.gapBehindFrame.countDone how).close } := by
  rw [Line.countDone_eq]
  rfl

/-- Settles O19: the end of a frame in its two ways, and the tallies by the state of the line. -/
theorem frameEndRows : Obligations.FrameEndRows := by
  intro n i s r hrunning hstate hcurrent hr hline hcomplete l flush c
  subst hline
  obtain ⟨hdone, hdiscarding⟩ := endFrame_of_frame hr hcomplete
  have hflush : (s.line r.line).flushing = true ↔ flush := Line.flushing_iff _
  refine ⟨endFrame r.line i s, ?_, lineSide_endFrame _ _ _, ?_⟩
  · have hevent := lineEvent_of_due (due := fun l => decide (l.tx.state = .trailer)) hrunning (decide_eq_true hstate) false
      (onCurrent r.line (endFrame r.line))
    rw [onCurrent_of_current hcurrent] at hevent
    exact congrArg _ hevent
  · by_cases hways : r.complete = true ∨ r.outcome = some .flushed ∨ flush
    · rw [hdone (by rwa [hflush])]
      have hat : ∀ u : State, (u.modLine r.line (fun k =>
          (k.gapBehindFrame.countDone (s.line r.line).endTally).countEnd r.outcome)).line r.line = _ :=
        fun u => (State.line_modLine_self ..).trans (Line.ended_eq ..)
      have hclose := Line.countDone_endTally_close l.gapBehindFrame l rfl
      refine ⟨rfl, rfl, rfl, fun j hj => State.frame_putFrame_of_ne _ _ hj, fun m hm => State.line_modLine_of_ne _ _ hm, ?_, ?_, ?_,
        fun _ => ⟨State.frame_putFrame_self .., rfl, rfl, ?_, ?_, ?_⟩, fun hmore hnot hmode => ?_⟩
      · rw [hat]; rfl
      · intro hout
        rw [hat, hout]; rfl
      · intro hout
        rw [hat]
        exact if_neg hout
      · rintro ⟨hclosing, hmode⟩
        rw [hat]
        exact hclose.trans ((if_pos hclosing).trans (if_pos hmode))
      · intro hclosing hmode
        rw [hat]
        exact hclose.trans ((if_pos hclosing).trans (if_neg (by rw [show l.close.txMode = .drain from hmode]; nofun)))
      · intro hopen
        rw [hat]
        exact hclose.trans (if_neg hopen)
      · rw [hmore] at hways
        exact absurd hways (by simp [hnot, hmode])
    · push Not at hways
      obtain ⟨hmore, hnot, hmode⟩ := hways
      have hat : ∀ u : State, (u.modLine r.line (fun k => k.gapBehindFrame.countEnd r.outcome)).line r.line = _ :=
        fun u => State.line_modLine_self ..
      rw [hdiscarding (by simpa using hmore) hnot (by rwa [hflush])]
      refine ⟨rfl, rfl, rfl, fun j hj => State.frame_putFrame_of_ne _ _ hj, fun m hm => State.line_modLine_of_ne _ _ hm, ?_,
        fun hout => absurd (hcomplete hout) hmore, fun hout => ?_, fun h => ?_,
        fun _ _ _ => ⟨State.frame_putFrame_self .., rfl, rfl, ?_⟩⟩
      · rw [hat]; rfl
      · rw [hat]
        exact if_neg hout
      · rcases h with h | h | h
        · exact absurd h hmore
        · exact absurd h hnot
        · exact absurd h hmode
      · rw [hat]; rfl

/-! ## The expiries of a line (R40, R41) -/

/-- Settles O23: the aged frames of both queues fail in queue order. -/
theorem expiryTakesAgedFrames : Obligations.ExpiryTakesAgedFrames := by
  intro n s hrunning hdue l judged aged
  have hevent := lineEvent_of_due (due := fun l => l.tx.expiryDue) hrunning hdue true
    (fun t => expireLine n (t.modLine n (fun l => { l with tx := { l.tx with expiryDue := false } })))
  have hexec : exec (.expiry n) s = .next (serve true (settleLine true n (expireLine n judged))) := congrArg _ hevent
  have hconfig : (judged.line n).config = l.config := by simp only [judged, State.line_modLine_self]; rfl
  have hqueued : (judged.line n).queued = l.tx.urgent ++ l.tx.normal := by simp only [judged, State.line_modLine_self]; rfl
  have haged : agedOut judged l.config.lifetime = fun i => (s.frame i).any (fun r => l.config.lifetime ≤ r.age) := by
    funext i
    unfold agedOut
    rw [show judged.frame i = s.frame i from rfl]
    cases s.frame i <;> rfl
  rw [hexec]
  refine ⟨fun hzero => ?_, fun hsome => ?_⟩ <;> unfold expireLine <;> simp only [hconfig, hqueued, haged]
  · rw [if_pos hzero]
  · rw [if_neg hsome]

/-! ## The expiry of the drain timer (R118, R120) -/

theorem flushQueued_of_frame {s : State} {i : Nat} {r : FrameRecord} (hr : s.frame i = some r) :
    flushQueued i s =
      (((s.pooled r.chain).listed r.tag i).putFrame i
        { r with outcome := some (r.outcome.getD .flushed), chain := [], stored := 0, state := .done }).modLine r.line
          (fun l => (l.unqueue r.priority i).countDone .flushed) := by
  simp only [flushQueued, hr]
  exact enterDone_withdrawn ..

theorem mem_discardingOf {s : State} {n : LineNo} {i : Nat} (hw : Table.wf s.tags) :
    i ∈ discardingOf n s ↔ ∃ tag r, Table.get s.tags tag = some i ∧ s.frame i = some r ∧ r.state = .discarding ∧ r.line = n := by
  simp only [discardingOf, List.mem_filter, List.mem_map]
  constructor
  · rintro ⟨⟨⟨tag, j⟩, htag, rfl⟩, hd⟩
    cases hr : s.frame j with
    | none => simp [hr] at hd
    | some r =>
      simp only [hr, Bool.and_eq_true, decide_eq_true_eq] at hd
      exact ⟨tag, r, Table.get_of_mem hw htag, rfl, hd.1, hd.2⟩
  · rintro ⟨tag, r, htag, hr, hstate, hline⟩
    exact ⟨⟨(tag, i), Table.mem_of_get htag, rfl⟩, by simp [hr, hstate, hline]⟩

/-- Settles O24: the three steps of the flush handling in their order. -/
theorem drainTimerExpiryFlushes : Obligations.DrainTimerExpiryFlushes := by
  refine ⟨fun n s hrunning hclosing hdue => ?_, fun i s r hr => ?_, fun n s hw => ⟨fun i => mem_discardingOf hw, ?_⟩⟩
  · intro l one two three
    have hevent := lineEvent_of_due (n := n) (due := fun l => decide (l.state = .closing) && decide (l.close.drainTimer = some 0))
      hrunning (by simp [hclosing, hdue]) true (flushHandling n)
    refine congrArg _ (hevent.trans ?_)
    have hflush : flushHandling n s =
        three.modLine n (fun k => { k with close := { k.close with txMode := .flush, drainTimer := none } }) := by
      simp only [flushHandling, three, l]
      cases (s.line n).tx.current <;> rfl
    rw [hflush]
  · rw [flushQueued_of_frame hr]
    intro t
    have hline : t.line r.line = ((s.line r.line).unqueue r.priority i).countDone .flushed := State.line_modLine_self ..
    have htx : (t.line r.line).tx = ((s.line r.line).unqueue r.priority i).tx := by rw [hline, Line.countDone_eq]
    refine ⟨State.frame_putFrame_self .., fun j hj => State.frame_putFrame_of_ne _ _ hj, rfl, rfl, rfl, ?_, ?_, fun hclosing => ?_⟩
    · rw [htx]; rfl
    · rw [htx]; rfl
    · rw [hline, Line.countDone_flushed_of_closing (l := (s.line r.line).unqueue r.priority i) hclosing]
      rfl
  · refine ⟨s.tags.filter (fun p => (s.frame p.2).any (fun r => decide (r.state = .discarding) && decide (r.line = n))),
      List.filter_sublist, ?_⟩
    unfold discardingOf
    rw [List.filter_map]
    refine congrArg (List.map Prod.snd) (List.filter_congr fun p _ => ?_)
    dsimp only [Function.comp]
    cases s.frame p.2 <;> rfl

end Sys2Proof.Machine

end

section
-- The proofs below are checked one after another: in parallel each waits for the others with a thread of its own.
set_option Elab.async false

/-! PROOFS. CLOSE_LINE, the judgment of reaching CLOSED, and the escalation of a close (6.4 to 6.6). -/

namespace Sys2Proof.Machine

/-! ## The DISCARDING frames of a line go to DONE (R118, R122) -/

theorem Nat.repeat_satInc_succ (k x : Nat) : Nat.repeat satInc k (satInc x) = Nat.repeat satInc (k + 1) x := by
  induction k with
  | zero => rfl
  | succ k ih => exact congrArg satInc ih

/-- What the entry of these frames of a CLOSING line into DONE, counted as flushed, has changed. -/
structure Finished (n : LineNo) (gone : List Nat) (s t : State) : Prop where
  side : LineSide s t
  line : t.line n = { s.line n with close := { (s.line n).close with
    flushed := Nat.repeat satInc gone.length (s.line n).close.flushed } }
  lines : ∀ m, m ≠ n → t.line m = s.line m
  frames : ∀ i, t.frame i = if i ∈ gone then (s.frame i).map (fun r => { r with state := .done }) else s.frame i
  completion : t.completion = s.completion ++ gone.map EntryRef.frame
  tags : ∀ tag, Table.get t.tags tag =
    if gone.any (fun i => (s.frame i).any (fun r => r.tag = tag)) then none else Table.get s.tags tag
  freeCells : t.store.freeCells = s.store.freeCells
  octets : t.store.octets = s.store.octets
  replies : t.replies = s.replies

theorem finished_enterDone {n : LineNo} {s : State} (hclosing : (s.line n).state = .closing) (gone : List Nat)
    (hgone : ∀ i ∈ gone, ∃ r, s.frame i = some r ∧ r.line = n) :
    Finished n gone s (gone.foldl (fun t i => enterDone .flushed i t) s) := by
  induction gone generalizing s with
  | nil =>
    exact ⟨LineSide.refl s, rfl, fun _ _ => rfl, fun _ => by simp, by simp, fun _ => by simp, rfl, rfl, rfl⟩
  | cons i gone ih =>
    obtain ⟨r, hr, rfl⟩ := hgone i List.mem_cons_self
    have hstep := enterDone_of_frame .flushed hr
    have hline1 : (enterDone .flushed i s).line r.line = { s.line r.line with
        close := { (s.line r.line).close with flushed := satInc (s.line r.line).close.flushed } } := by
      rw [hstep, State.line_modLine_self]
      exact Line.countDone_flushed_of_closing hclosing
    have hframe1 : ∀ j, (enterDone .flushed i s).frame j =
        if j = i then (s.frame j).map (fun r => { r with state := .done }) else s.frame j := by
      intro j
      rw [hstep]
      by_cases hj : j = i
      · subst hj
        rw [if_pos rfl, hr]
        exact State.frame_putFrame_self ..
      · rw [if_neg hj]
        exact State.frame_putFrame_of_ne _ _ hj
    have htag1 : ∀ j tag, ((enterDone .flushed i s).frame j).any (fun q => q.tag = tag) = (s.frame j).any (fun q => q.tag = tag) := by
      intro j tag
      rw [hframe1]
      split
      · cases s.frame j <;> rfl
      · rfl
    have hrest := ih (s := enterDone .flushed i s) (by rw [hline1]; exact hclosing) (by
      intro j hj
      obtain ⟨q, hq, hqline⟩ := hgone j (List.mem_cons_of_mem _ hj)
      rw [hframe1, hq]
      split
      · exact ⟨_, rfl, hqline⟩
      · exact ⟨q, rfl, hqline⟩)
    refine ⟨(lineSide_enterDone .flushed i s).trans hrest.side, ?_, fun m hm => ?_, fun j => ?_, ?_, fun tag => ?_, ?_, ?_, ?_⟩
    · rw [List.foldl_cons, hrest.line, hline1, List.length_cons]
      simp only [Nat.repeat_satInc_succ]
    · rw [List.foldl_cons, hrest.lines m hm, hstep, State.line_modLine_of_ne _ _ hm]
      rfl
    · rw [List.foldl_cons, hrest.frames, hframe1]
      by_cases hrestj : j ∈ gone <;> by_cases hj : j = i <;> simp [hrestj, hj, Option.map_map, Function.comp_def]
    · rw [List.foldl_cons, hrest.completion, hstep]
      simp [State.listed, State.putFrame, State.modLine]
    · rw [List.foldl_cons, hrest.tags]
      simp only [htag1, List.any_cons, Bool.or_eq_true]
      have hdel : Table.get (enterDone .flushed i s).tags tag = if r.tag = tag then none else Table.get s.tags tag := by
        rw [hstep]
        by_cases htag : r.tag = tag
        · rw [if_pos htag, ← htag]
          exact Table.get_del_self ..
        · rw [if_neg htag]
          exact Table.get_del_of_ne _ (Ne.symm htag)
      rw [hdel, hr]
      by_cases htag : r.tag = tag <;> simp [htag]
    · rw [List.foldl_cons, hrest.freeCells, hstep]
      rfl
    · rw [List.foldl_cons, hrest.octets, hstep]
      rfl
    · rw [List.foldl_cons, hrest.replies, hstep]
      rfl

theorem exists_frame_of_mem_discardingOf {s : State} {n : LineNo} {i : Nat} (h : i ∈ discardingOf n s) :
    ∃ r, s.frame i = some r ∧ r.line = n := by
  obtain ⟨-, hd⟩ := List.mem_filter.mp h
  cases hr : s.frame i with
  | none => simp [hr] at hd
  | some r =>
    simp only [hr, Bool.and_eq_true, decide_eq_true_eq] at hd
    exact ⟨r, rfl, hd.2⟩

theorem finished_finishDiscarding {n : LineNo} {s : State} (hclosing : (s.line n).state = .closing) :
    Finished n (discardingOf n s) s (finishDiscarding n s) :=
  finished_enterDone hclosing _ fun _ => exists_frame_of_mem_discardingOf

/-! ## Reaching CLOSED (R122) -/

theorem Line.closedDue_iff (l : Line) : l.closedDue = true ↔
    l.state = .closing ∧ l.tx.urgent = [] ∧ l.tx.normal = [] ∧ l.tx.current = none ∧ (l.tx.state = .idle ∨ l.tx.state = .held) ∧
      l.rx.queue = [] := by
  simp [Line.closedDue, and_assoc]

/-! ## The release of receive mode DISCARD (R119) -/

/-- The frame has no delivery begun. -/
def State.undelivered (s : State) (i : Nat) : Bool := (s.frame i).any (fun r => !r.deliveryBegun)

theorem discardQueued_of_begun {n : LineNo} {s : State} {i : Nat} (h : s.undelivered i = false) : discardQueued n s i = s := by
  refine if_pos ?_
  unfold State.undelivered at h
  cases hr : s.frame i with
  | none => rfl
  | some r => simpa [hr] using h

theorem discardQueued_of_undelivered {n : LineNo} {s : State} {i : Nat} (h : s.undelivered i = true) :
    discardQueued n s i = (freeFrame i s).modLine n (fun l => { l with
      rx := { l.rx with queue := l.rx.queue.filter (· ≠ i) }
      close := { l.close with discarded := satInc l.close.discarded } }) := by
  refine if_neg ?_
  unfold State.undelivered at h
  cases hr : s.frame i with
  | none => simp [hr] at h
  | some r => simpa [hr] using h

/-- What the release of these frames of a receive queue has changed. -/
structure Discarded (n : LineNo) (todo : List Nat) (s t : State) : Prop where
  side : LineSide s t
  line : ∃ count, t.line n = { s.line n with
    rx := { (s.line n).rx with queue := (s.line n).rx.queue.filter (fun i => !(decide (i ∈ todo) && s.undelivered i)) }
    close := { (s.line n).close with discarded := Nat.repeat satInc count (s.line n).close.discarded } } ∧
    (todo.Nodup → count = (todo.filter s.undelivered).length)
  lines : ∀ m, m ≠ n → t.line m = s.line m
  frames : ∀ i, t.frame i = if i ∈ todo ∧ s.undelivered i = true then none else s.frame i
  freeCells : todo.Nodup → t.store.freeCells = s.store.freeCells ++
    (todo.filter s.undelivered).flatMap (fun i => (s.frame i).elim [] (fun r => r.chain.map ChainCell.cell))
  octets : t.store.octets = s.store.octets
  tags : t.tags = s.tags
  completion : t.completion = s.completion
  replies : t.replies = s.replies

theorem discarded_foldl (n : LineNo) (todo : List Nat) (s : State) : Discarded n todo s (todo.foldl (discardQueued n) s) := by
  induction todo generalizing s with
  | nil =>
    exact ⟨LineSide.refl s, ⟨0, by simp [Nat.repeat], fun _ => rfl⟩, fun _ _ => rfl, fun _ => by simp, fun _ => by simp, rfl, rfl,
      rfl, rfl⟩
  | cons i todo ih =>
    rw [List.foldl_cons]
    cases hgoes : s.undelivered i with
    | false =>
      rw [discardQueued_of_begun hgoes]
      have hrest := ih s
      have hmem (j : Nat) : (decide (j ∈ i :: todo) && s.undelivered j) = (decide (j ∈ todo) && s.undelivered j) := by
        by_cases hj : j = i <;> simp [hj, hgoes]
      obtain ⟨count, hline, hcount⟩ := hrest.line
      refine ⟨hrest.side, ⟨count, ?_, fun hnodup => ?_⟩, hrest.lines, fun j => ?_, fun hnodup => ?_, hrest.octets, hrest.tags,
        hrest.completion, hrest.replies⟩
      · simp only [hmem]
        exact hline
      · rw [List.filter_cons_of_neg (by simp [hgoes])]
        exact hcount hnodup.of_cons
      · have hiff : (j ∈ i :: todo ∧ s.undelivered j = true) ↔ (j ∈ todo ∧ s.undelivered j = true) := by
          by_cases hj : j = i <;> simp [hj, hgoes]
        rw [hrest.frames]
        simp only [hiff]
      · rw [List.filter_cons_of_neg (by simp [hgoes])]
        exact hrest.freeCells hnodup.of_cons
    | true =>
      have hstep := discardQueued_of_undelivered (n := n) hgoes
      obtain ⟨r, hr⟩ : ∃ r, s.frame i = some r := by
        cases hr : s.frame i with
        | none => simp [State.undelivered, hr] at hgoes
        | some r => exact ⟨r, rfl⟩
      have hfree := freeFrame_eq i s
      have hframe1 : ∀ j, (discardQueued n s i).frame j = if j = i then none else s.frame j := by
        intro j
        rw [hstep]
        exact frame_freeFrame i j s
      have hgoes1 : ∀ j, (discardQueued n s i).undelivered j = (!decide (j = i) && s.undelivered j) := by
        intro j
        unfold State.undelivered
        rw [hframe1]
        by_cases hj : j = i <;> simp [hj]
      have hline1 : (discardQueued n s i).line n = { s.line n with
          rx := { (s.line n).rx with queue := (s.line n).rx.queue.filter (· ≠ i) }
          close := { (s.line n).close with discarded := satInc (s.line n).close.discarded } } := by
        rw [hstep, State.line_modLine_self, hfree]
        rfl
      have hrest := ih (discardQueued n s i)
      obtain ⟨count, hline, hcount⟩ := hrest.line
      have hsame (hnodup : (i :: todo).Nodup) : todo.filter (discardQueued n s i).undelivered = todo.filter s.undelivered := by
        refine List.filter_congr fun j hj => ?_
        have hne : j ≠ i := fun h => (List.nodup_cons.mp hnodup).1 (h ▸ hj)
        simp [hgoes1, hne]
      have hcells1 : (discardQueued n s i).store.freeCells = s.store.freeCells ++ r.chain.map ChainCell.cell := by
        rw [hstep]
        simp only [freeFrame, releaseChain_of_frame hr]
        rfl
      have hoctets1 : (discardQueued n s i).store.octets = s.store.octets := by
        rw [hstep]
        simp only [freeFrame, releaseChain_of_frame hr]
        rfl
      refine ⟨(lineSide_discardQueued n s i).trans hrest.side, ⟨count + 1, ?_, fun hnodup => ?_⟩, fun m hm => ?_, fun j => ?_,
        fun hnodup => ?_, hrest.octets.trans hoctets1, ?_, ?_, ?_⟩
      · rw [hline, hline1]
        simp only [List.filter_filter, Nat.repeat_satInc_succ, hgoes1]
        congr 3
        funext j
        by_cases hj : j = i <;> by_cases hjt : j ∈ todo <;> simp [hj, hjt, hgoes]
      · rw [hcount hnodup.of_cons, hsame hnodup, List.filter_cons_of_pos hgoes, List.length_cons]
      · rw [hrest.lines m hm, hstep, State.line_modLine_of_ne _ _ hm, hfree]
        rfl
      · rw [hrest.frames, hgoes1, hframe1]
        by_cases hj : j = i <;> by_cases hjt : j ∈ todo <;> simp [hj, hjt, hgoes]
      · rw [hrest.freeCells hnodup.of_cons, hsame hnodup, hcells1, List.filter_cons_of_pos hgoes, List.flatMap_cons, hr,
          Option.elim_some, List.append_assoc]
        refine congrArg (fun l => _ ++ (_ ++ l)) (List.flatMap_congr fun j hj => ?_)
        have hne : j ≠ i := fun h => (List.nodup_cons.mp hnodup).1 (h ▸ List.mem_of_mem_filter hj)
        rw [hframe1, if_neg hne]
      · rw [hrest.tags, hstep, hfree]
        rfl
      · rw [hrest.completion, hstep, hfree]
        rfl
      · rw [hrest.replies, hstep, hfree]
        rfl

theorem releaseDiscard_eq (n : LineNo) (s : State) :
    releaseDiscard n s = ((s.line n).rx.queue.foldl (discardQueued n) s).modLine n
      (fun l => { l with close := { l.close with rxMode := .discard } }) := rfl

theorem queue_releaseDiscard (n : LineNo) (s : State) :
    ((releaseDiscard n s).line n).rx.queue = (s.line n).rx.queue.filter (fun i => !s.undelivered i) := by
  obtain ⟨count, hline, -⟩ := (discarded_foldl n (s.line n).rx.queue s).line
  rw [releaseDiscard_eq, State.line_modLine_self, hline]
  exact List.filter_congr fun i hi => by simp [hi]

/-! ## CLOSE_LINE on a CLOSING line (Table 6.4) -/

theorem txModeField_of_lt {b : Byte} (h : b.toNat < 2) : txModeField b = some (if b = 1#8 then .flush else .drain) := by
  have hb : b = 0#8 ∨ b = 1#8 := by bv_omega
  rcases hb with rfl | rfl <;> rfl

theorem rxModeField_of_lt {b : Byte} (h : b.toNat < 2) : rxModeField b = some (if b = 1#8 then .discard else .deliver) := by
  have hb : b = 0#8 ∨ b = 1#8 := by bv_omega
  rcases hb with rfl | rfl <;> rfl

theorem txModeField_eq_none {b : Byte} (h : 2 ≤ b.toNat) : txModeField b = none := by
  unfold txModeField
  rw [if_neg (by bv_omega), if_neg (by bv_omega)]

theorem rxModeField_eq_none {b : Byte} (h : 2 ≤ b.toNat) : rxModeField b = none := by
  unfold rxModeField
  rw [if_neg (by bv_omega), if_neg (by bv_omega)]

/-- Settles O40: the two modes escalate each by itself, and the release takes the queue frame by frame. -/
theorem escalationRows : Obligations.EscalationRows := by
  refine ⟨fun n s hnodup => ?release, fun s tag line tmode rmode low high n hexecutes hn hclosing htmode hrmode => ?escalate⟩
  case release =>
    intro l t goes gone
    have hrest := discarded_foldl n l.rx.queue s
    obtain ⟨count, hline, hcount⟩ := hrest.line
    refine ⟨?_, fun m hm => ?_, fun i => ?_, ?_, hrest.octets, hrest.tags, hrest.completion, hrest.replies,
      lineSide_releaseDiscard n s⟩
    · have hqueue : l.rx.queue.filter (fun i => !(decide (i ∈ l.rx.queue) && s.undelivered i)) = l.rx.queue.filter (fun i => !goes i) :=
        List.filter_congr fun i hi => by simp only [hi, decide_true, Bool.true_and]; rfl
      refine (State.line_modLine_self ..).trans ?_
      rw [hline, hcount hnodup, hqueue]
      rfl
    · exact (State.line_modLine_of_ne _ _ hm).trans (hrest.lines m hm)
    · refine (hrest.frames i).trans ?_
      simp only [gone, List.mem_filter]
      rfl
    · exact hrest.freeCells hnodup
  case escalate =>
    intro tx rx gives
    have hbody : commandBody .closeLine tag [line, tmode, rmode, low, high] s =
        escalate tag n (if tmode = 1#8 then .flush else .drain) (if rmode = 1#8 then .discard else .deliver) s := by
      simp only [commandBody, closeLineBody, lineField_eq_some hn, txModeField_of_lt htmode, rxModeField_of_lt hrmode, hclosing]
    have htx : (decide ((if tmode = 1#8 then TxMode.flush else .drain) = .flush) &&
        decide ((s.line n).close.txMode = .drain)) = true ↔ tx := by
      by_cases h : tmode = 1#8 <;> simp [tx, h]
    have hrx : (decide ((if rmode = 1#8 then RxMode.discard else .deliver) = .discard) &&
        decide ((s.line n).close.rxMode = .deliver)) = true ↔ rx := by
      by_cases h : rmode = 1#8 <;> simp [rx, h]
    have htaken {u : State} (hu : escalate tag n (if tmode = 1#8 then .flush else .drain)
        (if rmode = 1#8 then .discard else .deliver) s = settleLine false n (replyOk .closeLine tag [] u)) : gives u :=
      exec_command_taken hexecutes rfl (hbody.trans hu)
    refine ⟨fun hnt hnr => exec_command_refused hexecutes rfl (hbody.trans ?_), fun ht hnr => htaken ?_, fun hnt hr => htaken ?_,
      fun ht hr => htaken ?_, ?_, ?_, ?_, fun i => ?_⟩
    · simp only [escalate, Bool.or_eq_true]
      rw [if_neg (by rw [htx, hrx]; exact not_or.mpr ⟨hnt, hnr⟩)]
    · simp only [escalate, Bool.or_eq_true]
      rw [if_pos (.inl (htx.mpr ht)), if_pos (htx.mpr ht), if_neg (hrx.not.mpr hnr)]
    · simp only [escalate, Bool.or_eq_true]
      rw [if_pos (.inr (hrx.mpr hr)), if_neg (htx.not.mpr hnt), if_pos (hrx.mpr hr)]
    · simp only [escalate, Bool.or_eq_true]
      rw [if_pos (.inl (htx.mpr ht)), if_pos (htx.mpr ht), if_pos (hrx.mpr hr)]
    · simp only [flushHandling, State.line_modLine_self]
    · simp only [flushHandling, State.line_modLine_self]
    · simp only [releaseDiscard_eq, State.line_modLine_self]
    · rw [queue_releaseDiscard, List.mem_filter]
      refine and_congr_right' ?_
      unfold State.undelivered
      cases s.frame i <;> simp

/-! ## CLOSE_LINE on an OPEN line (R116) -/

/-- A CLOSING line that holds nothing, its transmitter in IDLE and its receiver OFF, its tallies at 0. -/
structure Line.Vacated (l : Line) : Prop where
  closing : l.state = .closing
  idle : l.tx.state = .idle
  urgent : l.tx.urgent = []
  normal : l.tx.normal = []
  current : l.tx.current = none
  noBreak : l.tx.pendingBreak = none
  queue : l.rx.queue = []
  off : l.rx.state = .off
  completed : l.close.completed = 0
  flushed : l.close.flushed = 0
  discarded : l.close.discarded = 0

/-- A line without queued frames has no candidate. -/
theorem Line.Vacated.candidate {l : Line} (h : l.Vacated) (s : State) : candidateFrame s l = none := by
  simp [candidateFrame, eligibleHead, h.urgent, h.normal]

theorem discardingOf_modLine (n m : LineNo) (f : Line → Line) (s : State) : discardingOf m (s.modLine n f) = discardingOf m s := rfl

/-- The flush handling of a line that holds nothing. -/
theorem Line.Vacated.flushHandling {s : State} {n : LineNo} (h : (s.line n).Vacated) (hnone : discardingOf n s = []) :
    flushHandling n s = s.modLine n (fun k => { k with close := { k.close with txMode := .flush, drainTimer := none } }) := by
  simp only [Machine.flushHandling, Line.queued, h.urgent, h.normal, h.current, List.append_nil, List.foldl_nil, finishDiscarding, hnone]

/-- A line that holds nothing reaches CLOSED with the judgments of its event (R122). -/
theorem Line.Vacated.settle {s : State} {n : LineNo} (h : (s.line n).Vacated) (hnone : discardingOf n s = []) (atTick : Bool) :
    settleLine atTick n s = s.modLine n (fun l => (l.txEnter .idle).enterClosed) := by
  have hselect : selectNext atTick n s = s.modLine n (Line.txEnter .idle) := by
    rw [selectNext_of_no_break atTick (.inl h.idle) h.noBreak, h.candidate]
    rfl
  have hdue : ((s.modLine n (Line.txEnter .idle)).line n).closedDue = true := by
    rw [State.line_modLine_self, Line.closedDue_iff]
    exact ⟨h.closing, h.urgent, h.normal, h.current, .inl rfl, h.queue⟩
  have hclosed : judgeClosed n (s.modLine n (Line.txEnter .idle)) = s.modLine n (fun l => (l.txEnter .idle).enterClosed) := by
    rw [judgeClosed, if_pos hdue, finishDiscarding, discardingOf_modLine, hnone, List.foldl_nil, State.modLine_modLine]
  rw [settleLine, hselect, hclosed]
  refine State.modLine_of_eq _ n Line.judgeConditions ?_
  rw [State.line_modLine_self]
  exact if_neg (fun hopen => hopen.1 rfl)

/-- The receiver of a line that is not within a frame enters OFF in one change of its line (R89). -/
theorem closeReceiver_vacated {s : State} {n : LineNo} (hcurrent : (s.line n).rx.current = none) (hclosing : (s.line n).state = .closing)
    (hidle : (s.line n).tx.state = .idle) (hurgent : (s.line n).tx.urgent = []) (hnormal : (s.line n).tx.normal = [])
    (hframe : (s.line n).tx.current = none) (hbreak : (s.line n).tx.pendingBreak = none) (hqueue : (s.line n).rx.queue = [])
    (hcompleted : (s.line n).close.completed = 0) (hflushed : (s.line n).close.flushed = 0)
    (hdiscarded : (s.line n).close.discarded = 0) :
    ∃ k : Line, closeReceiver n s = s.modLine n (fun _ => k) ∧ k.Vacated := by
  unfold closeReceiver
  split
  · simp only [discardAssembly, hcurrent, countRxError, State.modLine_modLine]
    refine ⟨_, State.modLine_congr (g := fun _ => _) rfl, ?_⟩
    unfold Line.leaveAssembling
    split <;> exact ⟨hclosing, hidle, hurgent, hnormal, hframe, hbreak, hqueue, rfl, hcompleted, hflushed, hdiscarded⟩
  · exact ⟨_, State.modLine_congr (g := fun _ => _) rfl,
      hclosing, hidle, hurgent, hnormal, hframe, hbreak, hqueue, rfl, hcompleted, hflushed, hdiscarded⟩

theorem endBreak_of_none {s : State} {n : LineNo} (status : ReplyStatus) (h : (s.line n).tx.pendingBreak = none) :
    endBreak n status s = s := by
  simp only [endBreak, h]

/-- Every further step of a close changes of a line that holds nothing no more than its close. -/
theorem Line.Vacated.applyModes {s : State} {n : LineNo} {k : Line} (h : k.Vacated) (hnone : discardingOf n s = []) (t : TxMode)
    (r : RxMode) (limit : Nat) :
    ∃ k' : Line, applyRxMode n r (applyTxMode n t limit (s.modLine n (fun _ => k))) = s.modLine n (fun _ => k') ∧ k'.Vacated := by
  have hline : ((s.modLine n (fun _ => k)).line n).Vacated := by rwa [State.line_modLine_self]
  have htx : ∃ c, applyTxMode n t limit (s.modLine n (fun _ => k)) = s.modLine n (fun _ => { k with close := c }) ∧
      c.completed = 0 ∧ c.flushed = 0 ∧ c.discarded = 0 := by
    cases t with
    | flush =>
      rw [applyTxMode, hline.flushHandling hnone, State.modLine_modLine]
      exact ⟨_, rfl, h.completed, h.flushed, h.discarded⟩
    | drain =>
      rw [applyTxMode]
      split
      · exact ⟨k.close, rfl, h.completed, h.flushed, h.discarded⟩
      · rw [State.modLine_modLine]
        exact ⟨_, rfl, h.completed, h.flushed, h.discarded⟩
  obtain ⟨c, htx, hcompleted, hflushed, hdiscarded⟩ := htx
  rw [htx]
  cases r with
  | deliver =>
    exact ⟨_, rfl, h.closing, h.idle, h.urgent, h.normal, h.current, h.noBreak, h.queue, h.off, hcompleted, hflushed, hdiscarded⟩
  | discard =>
    have hqueue : ((s.modLine n (fun _ => { k with close := c })).line n).rx.queue = [] := by
      rw [State.line_modLine_self]; exact h.queue
    rw [applyRxMode, releaseDiscard_eq, hqueue, List.foldl_nil, State.modLine_modLine]
    exact ⟨_, rfl, h.closing, h.idle, h.urgent, h.normal, h.current, h.noBreak, h.queue, h.off, hcompleted, hflushed, hdiscarded⟩

theorem closeOpen_eq (tag : Byte) (n : LineNo) (t : TxMode) (r : RxMode) (limit : Nat) (s : State) :
    closeOpen tag n t r limit s = settleLine false n (applyRxMode n r (applyTxMode n t limit
      (joinReply { code := 0x11#8, tag := tag, status := .ok, results := [] }
        (endBreak n .aborted (closeReceiver n (s.modLine n (Line.beginClose t r))))))) := rfl

/-- Settles O39: the judgment of CLOSED by its conditions, the receiver and the pending break by their states, and CLOSE_LINE by
the state of its line. -/
theorem closeLineEffect : Obligations.CloseLineEffect := by
  refine ⟨fun n s => ?closed, fun n s => ?parts, fun s tag line tmode rmode low high hexecutes => ⟨fun hbad => ?badLine,
    fun n hn => ⟨fun hbad => ?badValue, fun t r ht hr => ⟨fun hclosed => ?wrongState, fun hopened => ?opened⟩⟩⟩⟩
  case closed =>
    intro l due t gone
    have hdue : (s.line n).closedDue = true ↔ due := Line.closedDue_iff _
    refine ⟨fun hnot => if_neg (hdue.not.mpr hnot), fun h => ?_⟩
    have ht : t = (finishDiscarding n s).modLine n Line.enterClosed := if_pos (hdue.mpr h)
    have hfinished := finished_finishDiscarding (n := n) (s := s) h.1
    rw [ht]
    refine ⟨?_, fun m hm => (State.line_modLine_of_ne _ _ hm).trans (hfinished.lines m hm), hfinished.frames, hfinished.completion,
      hfinished.tags, hfinished.freeCells, hfinished.octets, hfinished.replies, hfinished.side.trans (lineSide_modLine ..)⟩
    rw [State.line_modLine_self, hfinished.line]
    rfl
  case parts =>
    intro l
    refine ⟨fun i hstate hcurrent => ?_, fun hstate => ?_, endBreak_of_none _, fun b hb => ?_⟩
    · have hclose : closeReceiver n s = countRxError n (discardAssembly n .off s) := by
        simp only [closeReceiver, show (s.line n).rx.state = .assembling from hstate]
      rw [hclose]
      exact countRxError_discardAssembly .off hcurrent
    · unfold closeReceiver
      split
      next h => exact absurd h hstate
      next => rfl
    · simp only [endBreak, show (s.line n).tx.pendingBreak = some b from hb]
      refine congrArg (joinReply _) (State.modLine_congr ?_)
      by_cases hstate : (s.line n).tx.state = .breaking
      · rw [if_pos hstate, if_pos hstate, if_pos hstate, if_pos hstate]
      · rw [if_neg hstate, if_neg hstate, if_neg hstate, if_neg hstate]
  case badLine =>
    refine exec_command_refused hexecutes rfl ?_
    simp only [commandBody, closeLineBody, lineField_eq_none hbad]
  case badValue =>
    refine exec_command_refused hexecutes rfl ?_
    rcases hbad with hbad | hbad
    · simp only [commandBody, closeLineBody, lineField_eq_some hn, txModeField_eq_none hbad]
    · simp only [commandBody, closeLineBody, lineField_eq_some hn, rxModeField_eq_none hbad]
      cases txModeField tmode <;> rfl
  case wrongState =>
    refine exec_command_refused hexecutes rfl ?_
    simp only [commandBody, closeLineBody, lineField_eq_some hn, ht, hr, hclosed]
  case opened =>
    intro limit closing replied moved released
    have hexec : exec .closeLine s = .next (State.taken (closeOpen tag n t r limit s)) := by
      refine exec_command_taken hexecutes rfl ?_
      simp only [commandBody, closeLineBody, lineField_eq_some hn, ht, hr, hopened]
      rfl
    rw [hexec]
    refine ⟨?_, fun hidle hurgent hnormal hcurrent hbreak hqueue hrx hnone => ⟨_, rfl, ?_⟩⟩
    · cases t <;> cases r <;> rfl
    · have hbegun : (s.modLine n (Line.beginClose t r)).line n = (s.line n).beginClose t r := State.line_modLine_self ..
      obtain ⟨k, hk, hvacated⟩ := closeReceiver_vacated (s := s.modLine n (Line.beginClose t r)) (n := n) (by rw [hbegun]; exact hrx)
        (by rw [hbegun]; rfl) (by rw [hbegun]; exact hidle) (by rw [hbegun]; exact hurgent) (by rw [hbegun]; exact hnormal)
        (by rw [hbegun]; exact hcurrent) (by rw [hbegun]; exact hbreak) (by rw [hbegun]; exact hqueue) (by rw [hbegun]; rfl)
        (by rw [hbegun]; rfl) (by rw [hbegun]; rfl)
      rw [State.modLine_modLine] at hk
      rw [closeOpen_eq, hk, endBreak_of_none _ (by rw [State.line_modLine_self]; exact hvacated.noBreak)]
      obtain ⟨k', hk', hvacated'⟩ := hvacated.applyModes (n := n)
        (s := joinReply { code := 0x11#8, tag := tag, status := .ok, results := [] } s) hnone t r limit
      have hline : ((State.modLine (joinReply { code := 0x11#8, tag := tag, status := .ok, results := [] } s) n
          (fun _ => k')).line n).Vacated := by rwa [State.line_modLine_self]
      rw [show joinReply { code := 0x11#8, tag := tag, status := .ok, results := [] } (s.modLine n (fun _ => k)) =
        (joinReply { code := 0x11#8, tag := tag, status := .ok, results := [] } s).modLine n (fun _ => k) from rfl, hk',
        hline.settle hnone, State.modLine_modLine, State.line_modLine_self]
      exact ⟨rfl, rfl, hvacated'.off, rfl, rfl, rfl, hvacated'.completed, hvacated'.flushed, hvacated'.discarded, rfl, rfl, rfl⟩

end Sys2Proof.Machine

end

section
-- The proofs below are checked one after another: in parallel each waits for the others with a thread of its own.
set_option Elab.async false

/-! PROOFS. REDIRECT: which frames move, and where they stand afterwards (2.8). -/

namespace Sys2Proof.Machine

/-! ## The candidates in their order (R46) -/

/-- The age of the frame of this index, 0 where there is none. -/
def State.ageOf (s : State) (i : Nat) : Nat := (s.frame i).elim 0 FrameRecord.age

/-- The candidate at a place of a queue. -/
def Candidate.at (s : State) (urgent : Bool) (x : Nat × Nat) : Candidate :=
  { urgent := urgent, position := x.2, frame := x.1, age := s.ageOf x.1 }

theorem candidatesOf_eq (s : State) (urgent : Bool) (k : Nat) (queue : List Nat) :
    candidatesOf s urgent k queue = (queue.zipIdx k).map (Candidate.at s urgent) := by
  induction queue generalizing k with
  | nil => rfl
  | cons i rest ih => rw [candidatesOf, ih, List.zipIdx_cons, List.map_cons]; rfl

/-- URGENT before NORMAL, and nearer the head first. -/
def Candidate.Ahead (c d : Candidate) : Prop :=
  (c.urgent = true ∧ d.urgent = false) ∨ (c.urgent = d.urgent ∧ c.position < d.position)

/-- A candidate moves before another: the older one, and of equal ages the one ahead (R46). -/
def Candidate.First (c d : Candidate) : Prop := d.age < c.age ∨ (d.age = c.age ∧ c.Ahead d)

theorem candidatesOf_pairwise (s : State) (urgent : Bool) (queue : List Nat) :
    (candidatesOf s urgent 0 queue).Pairwise Candidate.Ahead := by
  rw [candidatesOf_eq, List.pairwise_map]
  have hsorted : (queue.zipIdx.map Prod.snd).Pairwise (· < ·) := by
    rw [List.zipIdx_map_snd]
    exact List.pairwise_lt_range'
  exact (List.pairwise_map.mp hsorted).imp fun h => .inr ⟨rfl, h⟩

theorem insertByAge_perm (c : Candidate) (cs : List Candidate) : (insertByAge c cs).Perm (c :: cs) := by
  induction cs with
  | nil => rfl
  | cons d rest ih =>
    unfold insertByAge
    split
    · rfl
    · exact (ih.cons d).trans (.swap ..)

theorem insertByAge_pairwise {c : Candidate} {cs : List Candidate} (hcs : cs.Pairwise Candidate.First)
    (hahead : ∀ d ∈ cs, d.Ahead c) : (insertByAge c cs).Pairwise Candidate.First := by
  induction cs with
  | nil => exact List.pairwise_singleton ..
  | cons d rest ih =>
    obtain ⟨hd, hrest⟩ := List.pairwise_cons.mp hcs
    unfold insertByAge
    split
    next hyounger =>
      refine List.pairwise_cons.mpr ⟨fun e he => .inl ?_, hcs⟩
      rcases List.mem_cons.mp he with rfl | he
      · exact hyounger
      · rcases hd e he with h | ⟨h, -⟩ <;> omega
    next hnot =>
      refine List.pairwise_cons.mpr ⟨fun e he => ?_, ih hrest fun e he => hahead e (List.mem_cons_of_mem _ he)⟩
      rcases List.mem_cons.mp ((insertByAge_perm c rest).mem_iff.mp he) with rfl | he
      · rcases Nat.lt_or_eq_of_le (Nat.not_lt.mp hnot) with h | h
        · exact .inl h
        · exact .inr ⟨h, hahead d List.mem_cons_self⟩
      · exact hd e he

/-- The candidates so far in their order stand before those that come (R46). -/
theorem foldl_insertByAge {cs acc : List Candidate} (hacc : acc.Pairwise Candidate.First) (hcs : cs.Pairwise Candidate.Ahead)
    (hbefore : ∀ d ∈ acc, ∀ c ∈ cs, d.Ahead c) :
    (cs.foldl (fun acc c => insertByAge c acc) acc).Perm (acc ++ cs) ∧
      (cs.foldl (fun acc c => insertByAge c acc) acc).Pairwise Candidate.First := by
  induction cs generalizing acc with
  | nil => exact ⟨by simp, hacc⟩
  | cons c cs ih =>
    obtain ⟨hc, hcs'⟩ := List.pairwise_cons.mp hcs
    have hperm := insertByAge_perm c acc
    obtain ⟨hfold, hpair⟩ := ih (insertByAge_pairwise hacc fun d hd => hbefore d hd c List.mem_cons_self) hcs' (by
      intro d hd e he
      rcases List.mem_cons.mp (hperm.mem_iff.mp hd) with rfl | hd
      · exact hc e he
      · exact hbefore d hd e (List.mem_cons_of_mem _ he))
    exact ⟨hfold.trans ((hperm.append_right cs).trans List.perm_middle.symm), hpair⟩

theorem oldestFirst_spec {cs : List Candidate} (hcs : cs.Pairwise Candidate.Ahead) :
    (oldestFirst cs).Perm cs ∧ (oldestFirst cs).Pairwise Candidate.First := by
  have h := foldl_insertByAge (acc := []) List.Pairwise.nil hcs (by simp)
  rwa [List.nil_append] at h

/-- Of two lists of candidates the URGENT ones stand ahead. -/
theorem pairwise_ahead_append (s : State) (u m : List Nat) :
    (candidatesOf s true 0 u ++ candidatesOf s false 0 m).Pairwise Candidate.Ahead := by
  refine List.pairwise_append.mpr ⟨candidatesOf_pairwise s true u, candidatesOf_pairwise s false m, fun c hc d hd => .inl ?_⟩
  rw [candidatesOf_eq, List.mem_map] at hc hd
  obtain ⟨x, -, rfl⟩ := hc
  obtain ⟨y, -, rfl⟩ := hd
  exact ⟨rfl, rfl⟩

theorem Candidate.ne_of_ahead {c d : Candidate} (h : c.Ahead d) : c ≠ d := by
  rintro rfl
  rcases h with ⟨h1, h2⟩ | ⟨-, h⟩
  · exact absurd (h1.symm.trans h2) nofun
  · exact lt_irrefl _ h

/-! ## The moved frames leave their queues (R46, R47) -/

/-- The frames of a queue at the places that pick names, in queue order. -/
def takenAt (pick : Nat → Bool) (queue : List Nat) : List Nat := (queue.zipIdx.filter (fun x => pick x.2)).map Prod.fst

theorem splitQueue_eq (chosen : List Nat) (k : Nat) (queue : List Nat) :
    splitQueue chosen k queue =
      (((queue.zipIdx k).filter (fun x => decide (x.2 ∈ chosen))).map Prod.fst,
        ((queue.zipIdx k).filter (fun x => !decide (x.2 ∈ chosen))).map Prod.fst) := by
  induction queue generalizing k with
  | nil => rfl
  | cons i rest ih =>
    rw [splitQueue, ih, List.zipIdx_cons]
    by_cases hk : k ∈ chosen <;> simp [hk]

/-- The places of the chosen candidates of one priority. -/
def chosenPlaces (urgent : Bool) (chosen : List Candidate) : List Nat :=
  (chosen.filter (fun c => c.urgent == urgent)).map Candidate.position

/-- The places that a REDIRECT takes from a queue of this priority. -/
def picks (urgent : Bool) (chosen : List Candidate) (k : Nat) : Bool := decide (k ∈ chosenPlaces urgent chosen)

theorem taken_sublist (pick : Nat → Bool) (queue : List Nat) : (takenAt pick queue).Sublist queue := by
  have h := (List.filter_sublist (p := fun x : Nat × Nat => pick x.2) (l := queue.zipIdx)).map Prod.fst
  rwa [List.zipIdx_map_fst] at h

theorem taken_perm (pick : Nat → Bool) (queue : List Nat) :
    (takenAt (fun k => !pick k) queue ++ takenAt pick queue).Perm queue := by
  have h := (List.filter_append_perm (fun x : Nat × Nat => pick x.2) queue.zipIdx).map Prod.fst
  rw [List.map_append, List.zipIdx_map_fst] at h
  exact List.perm_append_comm.trans h

theorem mem_takenAt {pick : Nat → Bool} {queue : List Nat} {i : Nat} :
    i ∈ takenAt pick queue ↔ ∃ p, queue[p]? = some i ∧ pick p = true := by
  simp only [takenAt, List.mem_map, List.mem_filter, Prod.exists, exists_and_right, exists_eq_right, List.mem_zipIdx_iff_getElem?]

/-- The line of every frame of the run becomes the destination (R46). -/
def relined (dst : LineNo) (run : List Nat) (s : State) : State :=
  run.foldl (fun t i => t.modFrame i (fun r => { r with line := dst })) s

theorem relined_spec (dst : LineNo) (run : List Nat) (s : State) :
    (∀ i, (relined dst run s).frame i = if i ∈ run then (s.frame i).map (fun r => { r with line := dst }) else s.frame i) ∧
      ∃ frames, relined dst run s = { s with store := { s.store with frames := frames } } := by
  induction run generalizing s with
  | nil => exact ⟨fun _ => by simp [relined], _, rfl⟩
  | cons j run ih =>
    obtain ⟨hframe, frames, hstate⟩ := ih (s.modFrame j (fun r => { r with line := dst }))
    refine ⟨fun i => ?_, frames, ?_⟩
    · refine (hframe i).trans ?_
      by_cases hi : i = j
      · subst hi
        rw [State.frame_modFrame_self]
        by_cases hrun : i ∈ run <;> simp [hrun, Option.map_map, Function.comp_def]
      · rw [State.frame_modFrame_of_ne _ _ hi]
        by_cases hrun : i ∈ run <;> simp [hrun, hi]
    · refine hstate.trans ?_
      unfold State.modFrame
      split <;> rfl

theorem line_relined (dst : LineNo) (run : List Nat) (s : State) (m : LineNo) : (relined dst run s).line m = s.line m := by
  obtain ⟨-, frames, hstate⟩ := relined_spec dst run s
  rw [hstate]
  rfl

theorem moveChosen_eq (src dst : LineNo) (p : Position) (chosen : List Candidate) (s : State) :
    let u := (s.line src).tx.urgent
    let m := (s.line src).tx.normal
    let runU := takenAt (picks true chosen) u
    let runM := takenAt (picks false chosen) m
    moveChosen src dst p chosen s = relined dst (runU ++ runM)
      ((s.modLine src (fun l => { l with tx := { l.tx with
          urgent := takenAt (fun k => !picks true chosen k) u, normal := takenAt (fun k => !picks false chosen k) m } })).modLine dst
        (fun l => { l with tx := { l.tx with urgent := placeRun p runU l.tx.urgent, normal := placeRun p runM l.tx.normal } })) := by
  have hu : chosen.filter (·.urgent) = chosen.filter (fun c => c.urgent == true) :=
    List.filter_congr fun c _ => by cases c.urgent <;> rfl
  have hm : chosen.filter (!·.urgent) = chosen.filter (fun c => c.urgent == false) :=
    List.filter_congr fun c _ => by cases c.urgent <;> rfl
  simp only [moveChosen, splitQueue_eq, hu, hm]
  rfl

/-- What REDIRECT has changed: the two lines' queues and the line of the moved frames (R46, R47). -/
structure Moved (src dst : LineNo) (p : Position) (chosen : List Candidate) (runU runM : List Nat) (s u : State) : Prop where
  source : u.line src = { s.line src with tx := { (s.line src).tx with
    urgent := takenAt (fun k => !picks true chosen k) (s.line src).tx.urgent
    normal := takenAt (fun k => !picks false chosen k) (s.line src).tx.normal } }
  destination : u.line dst = { s.line dst with tx := { (s.line dst).tx with
    urgent := placeRun p runU (s.line dst).tx.urgent, normal := placeRun p runM (s.line dst).tx.normal } }
  lines : ∀ m, m ≠ src → m ≠ dst → u.line m = s.line m
  frames : ∀ i, u.frame i = if i ∈ runU ++ runM then (s.frame i).map (fun r => { r with line := dst }) else s.frame i
  freeCells : u.store.freeCells = s.store.freeCells
  octets : u.store.octets = s.store.octets
  tags : u.tags = s.tags
  completion : u.completion = s.completion
  replies : u.replies = s.replies

theorem moved_moveChosen {src dst : LineNo} (hne : src ≠ dst) (p : Position) (chosen : List Candidate) (s : State) :
    Moved src dst p chosen (takenAt (picks true chosen) (s.line src).tx.urgent) (takenAt (picks false chosen) (s.line src).tx.normal)
      s (moveChosen src dst p chosen s) := by
  have hu := moveChosen_eq src dst p chosen s
  dsimp only at hu
  rw [hu]
  obtain ⟨hframe, frames, hstate⟩ := relined_spec dst
    (takenAt (picks true chosen) (s.line src).tx.urgent ++ takenAt (picks false chosen) (s.line src).tx.normal)
    ((s.modLine src (fun l => { l with tx := { l.tx with
        urgent := takenAt (fun k => !picks true chosen k) (s.line src).tx.urgent
        normal := takenAt (fun k => !picks false chosen k) (s.line src).tx.normal } })).modLine dst
      (fun l => { l with tx := { l.tx with
        urgent := placeRun p (takenAt (picks true chosen) (s.line src).tx.urgent) l.tx.urgent
        normal := placeRun p (takenAt (picks false chosen) (s.line src).tx.normal) l.tx.normal } }))
  refine ⟨?_, ?_, fun m hms hmd => ?_, hframe, ?_, ?_, ?_, ?_, ?_⟩
  · rw [line_relined, State.line_modLine_of_ne _ _ hne, State.line_modLine_self]
  · rw [line_relined, State.line_modLine_self, State.line_modLine_of_ne _ _ (Ne.symm hne)]
  · rw [line_relined, State.line_modLine_of_ne _ _ hmd, State.line_modLine_of_ne _ _ hms]
  all_goals rw [hstate]; rfl

/-! ## The checks and the effect -/

theorem selectorField_of_le {b : Byte} (h : b.toNat ≤ 2) :
    selectorField b = some (if b = 0#8 then .urgent else if b = 1#8 then .normal else .both) := by
  have hb : b = 0#8 ∨ b = 1#8 ∨ b = 2#8 := by bv_omega
  rcases hb with rfl | rfl | rfl <;> rfl

theorem positionField_of_le {b : Byte} (h : b.toNat ≤ 1) : positionField b = some (if b = 0#8 then .head else .tail) := by
  have hb : b = 0#8 ∨ b = 1#8 := by bv_omega
  rcases hb with rfl | rfl <;> rfl

theorem selectorField_eq_none {b : Byte} (h : 3 ≤ b.toNat) : selectorField b = none := by
  unfold selectorField
  rw [if_neg (by bv_omega), if_neg (by bv_omega), if_neg (by bv_omega)]

theorem positionField_eq_none {b : Byte} (h : 2 ≤ b.toNat) : positionField b = none := by
  unfold positionField
  rw [if_neg (by bv_omega), if_neg (by bv_omega)]

/-- The candidates of the selected queues. -/
theorem candidates_eq (s : State) (src : LineNo) (b : Byte) :
    candidates s src (if b = 0#8 then .urgent else if b = 1#8 then .normal else .both) =
      candidatesOf s true 0 (if b = 1#8 then [] else (s.line src).tx.urgent) ++
        candidatesOf s false 0 (if b = 0#8 then [] else (s.line src).tx.normal) := by
  by_cases h0 : b = 0#8
  · have h1 : b ≠ 1#8 := by rw [h0]; decide
    rw [if_pos h0, if_neg h1, if_pos h0, candidates, candidatesOf, List.append_nil]
  · by_cases h1 : b = 1#8
    · rw [if_neg h0, if_pos h1, if_pos h1, if_neg h0, candidates, candidatesOf, List.nil_append]
    · rw [if_neg h0, if_neg h1, if_neg h1, if_neg h0, candidates]

/-- The chosen candidates of two queues, their order, and what stays behind (R46). -/
structure Chosen (s : State) (urgent normal : List Nat) (room : Nat) (chosen : List Candidate) : Prop where
  length : chosen.length = min room (urgent.length + normal.length)
  nodup : chosen.Nodup
  subset : chosen ⊆ candidatesOf s true 0 urgent ++ candidatesOf s false 0 normal
  first : ∀ a ∈ chosen, ∀ b ∈ candidatesOf s true 0 urgent ++ candidatesOf s false 0 normal, b ∉ chosen → a.First b

theorem length_candidatesOf (s : State) (urgent : Bool) (queue : List Nat) : (candidatesOf s urgent 0 queue).length = queue.length := by
  rw [candidatesOf_eq, List.length_map, List.length_zipIdx]

theorem chosen_take (s : State) (urgent normal : List Nat) (room : Nat) :
    Chosen s urgent normal room ((oldestFirst (candidatesOf s true 0 urgent ++ candidatesOf s false 0 normal)).take room) := by
  have hahead := pairwise_ahead_append s urgent normal
  obtain ⟨hperm, hfirst⟩ := oldestFirst_spec hahead
  have hnodup : (oldestFirst (candidatesOf s true 0 urgent ++ candidatesOf s false 0 normal)).Nodup :=
    hperm.nodup_iff.mpr (hahead.imp Candidate.ne_of_ahead)
  refine ⟨?_, hnodup.sublist (List.take_sublist ..), fun c hc => hperm.mem_iff.mp (List.mem_of_mem_take hc), fun a ha b hb hnot => ?_⟩
  · rw [List.length_take, hperm.length_eq, List.length_append, length_candidatesOf, length_candidatesOf]
  · rw [← List.take_append_drop room (oldestFirst _)] at hfirst
    refine (List.pairwise_append.mp hfirst).2.2 a ha b ?_
    have hin := hperm.mem_iff.mpr hb
    rw [← List.take_append_drop room (oldestFirst _)] at hin
    exact (List.mem_append.mp hin).resolve_left hnot

/-- A place of the URGENT queue is picked exactly when its candidate is chosen, and likewise of the NORMAL queue. -/
theorem picks_iff {s : State} {u m : List Nat} {room : Nat} {chosen : List Candidate} (h : Chosen s u m room chosen)
    (urgent : Bool) {p i : Nat} (hat : (if urgent then u else m)[p]? = some i) :
    picks urgent chosen p = true ↔ Candidate.at s urgent (i, p) ∈ chosen := by
  rw [picks, decide_eq_true_iff, chosenPlaces]
  simp only [List.mem_map, List.mem_filter, beq_iff_eq]
  constructor
  · rintro ⟨c, ⟨hc, hurgent⟩, hp⟩
    have hin := h.subset hc
    rw [candidatesOf_eq, candidatesOf_eq, List.mem_append, List.mem_map, List.mem_map] at hin
    rcases hin with ⟨x, hx, rfl⟩ | ⟨x, hx, rfl⟩ <;> rw [List.mem_zipIdx_iff_getElem?] at hx <;> subst hp hurgent
    · obtain rfl : x.1 = i := Option.some.inj (hx.symm.trans hat)
      exact hc
    · obtain rfl : x.1 = i := Option.some.inj (hx.symm.trans hat)
      exact hc
  · exact fun hc => ⟨_, ⟨hc, rfl⟩, rfl⟩

theorem mem_candidatesOf {s : State} {urgent : Bool} {queue : List Nat} {p i : Nat} (hat : queue[p]? = some i) :
    Candidate.at s urgent (i, p) ∈ candidatesOf s urgent 0 queue := by
  rw [candidatesOf_eq]
  exact List.mem_map_of_mem (List.mem_zipIdx_iff_getElem?.mpr hat)

/-- A picked place and one that is not: the order of their candidates. -/
theorem first_of_picks {s : State} {u m : List Nat} {room : Nat} {chosen : List Candidate} (h : Chosen s u m room chosen)
    (a b : Bool) {p q i j : Nat} (hi : (if a then u else m)[p]? = some i) (hj : (if b then u else m)[q]? = some j)
    (hp : picks a chosen p = true) (hq : picks b chosen q = false) :
    (Candidate.at s a (i, p)).First (Candidate.at s b (j, q)) := by
  refine h.first _ ((picks_iff h a hi).mp hp) _ ?_ fun hin => ?_
  · cases b
    · exact List.mem_append_right _ (mem_candidatesOf hj)
    · exact List.mem_append_left _ (mem_candidatesOf hj)
  · rw [(picks_iff h b hj).mpr hin] at hq
    cases hq

/-- As many frames move as candidates are chosen. -/
theorem length_taken {s : State} {u m : List Nat} {room : Nat} {chosen : List Candidate} (h : Chosen s u m room chosen) :
    (takenAt (picks true chosen) u).length + (takenAt (picks false chosen) m).length = chosen.length := by
  have hone (urgent : Bool) (queue : List Nat) (hq : queue = if urgent then u else m) :
      (takenAt (picks urgent chosen) queue).length =
        ((candidatesOf s urgent 0 queue).filter (fun c => decide (c ∈ chosen))).length := by
    rw [takenAt, List.length_map, candidatesOf_eq, List.filter_map, List.length_map]
    refine congrArg List.length (List.filter_congr fun x hx => ?_)
    have hat := List.mem_zipIdx_iff_getElem?.mp hx
    rw [hq] at hat
    have hpick := picks_iff h urgent hat
    exact Bool.eq_iff_iff.mpr (hpick.trans decide_eq_true_iff.symm)
  rw [hone true u rfl, hone false m rfl, ← List.length_append, ← List.filter_append]
  refine List.Perm.length_eq ?_
  have hnodup := (pairwise_ahead_append s u m).imp Candidate.ne_of_ahead
  refine (List.perm_ext_iff_of_nodup (hnodup.filter _) h.nodup).mpr fun c => ?_
  simp only [List.mem_filter, decide_eq_true_eq]
  exact ⟨And.right, fun hc => ⟨h.subset hc, hc⟩⟩

/-- From a queue out of which no candidate is chosen nothing moves. -/
theorem picks_eq_false {s : State} {u m : List Nat} {room : Nat} {chosen : List Candidate} (h : Chosen s u m room chosen)
    (urgent : Bool) (hnil : (if urgent then u else m) = []) (k : Nat) : picks urgent chosen k = false := by
  refine decide_eq_false fun hk => ?_
  simp only [chosenPlaces, List.mem_map, List.mem_filter, beq_iff_eq] at hk
  obtain ⟨c, ⟨hc, hurgent⟩, -⟩ := hk
  have hin := h.subset hc
  rw [candidatesOf_eq, candidatesOf_eq, List.mem_append, List.mem_map, List.mem_map] at hin
  rcases hin with ⟨x, hx, rfl⟩ | ⟨x, hx, rfl⟩ <;> subst hurgent
  · have hu : u = [] := hnil
    simp [hu] at hx
  · have hm : m = [] := hnil
    simp [hm] at hx

theorem takenAt_of_false {pick : Nat → Bool} (h : ∀ k, pick k = false) (queue : List Nat) :
    takenAt pick queue = [] ∧ takenAt (fun k => !pick k) queue = queue := by
  simp [takenAt, h, List.zipIdx_map_fst]

/-- Settles O44: the candidates sorted by age, the oldest of them chosen, and the queues without them and with them. -/
theorem redirectEffect : Obligations.RedirectEffect := by
  intro s tag source destination selector position hexecutes refused
  refine ⟨fun hbad => exec_command_refused hexecutes rfl ?_, fun src dst hsrc hdst =>
    ⟨fun hbad => exec_command_refused hexecutes rfl ?_, fun hne hsel hpos => ⟨fun hbad => exec_command_refused hexecutes rfl ?_,
      fun hopened hlive => ?moved⟩⟩⟩
  · rcases hbad with hbad | hbad
    · simp only [commandBody, redirectBody, lineField_eq_none hbad]
    · simp only [commandBody, redirectBody, lineField_eq_none hbad]
      cases lineField source <;> rfl
  · simp only [commandBody, redirectBody, lineField_eq_some hsrc, lineField_eq_some hdst]
    rcases hbad with hbad | hbad | hbad
    · cases selectorField selector <;> cases positionField position <;> simp [hbad]
    · rw [selectorField_eq_none hbad]
    · rw [positionField_eq_none hbad]
      cases selectorField selector <;> rfl
  · simp only [commandBody, redirectBody, lineField_eq_some hsrc, lineField_eq_some hdst, selectorField_of_le hsel,
      positionField_of_le hpos, if_neg hne]
    rcases hbad with hbad | hbad
    · rw [if_pos hbad]
    · rw [if_pos hbad, ite_self]
  case moved =>
    intro urgent normal room moved age taken
    have hcandidates := candidates_eq s src selector
    let chosen := (oldestFirst (candidatesOf s true 0 urgent ++ candidatesOf s false 0 normal)).take room
    have hchosen : Chosen s urgent normal room chosen := chosen_take s urgent normal room
    let p : Position := if position = 0#8 then .head else .tail
    let u := moveChosen src dst p chosen s
    have hexec : exec .redirect s = .next (State.answered (settleLine false dst (settleLine false src u)) .redirect tag .ok
        [octet moved, octet (urgent.length + normal.length - moved)]) := by
      refine exec_command_ok hexecutes rfl ?_
      simp only [commandBody, redirectBody, lineField_eq_some hsrc, lineField_eq_some hdst, selectorField_of_le hsel,
        positionField_of_le hpos, if_neg hne]
      rw [if_neg (not_not.mpr hopened), if_neg hlive, chosenFrames, hcandidates, List.length_append, length_candidatesOf,
        length_candidatesOf]
      rw [show moved = chosen.length from hchosen.length.symm]
      rfl
    have hrunU : takenAt (picks true chosen) (s.line src).tx.urgent = takenAt (picks true chosen) urgent := by
      by_cases hs : selector = 1#8
      · have hnone := picks_eq_false hchosen true (if_pos hs)
        rw [(takenAt_of_false hnone _).1, (takenAt_of_false hnone _).1]
      · rw [show urgent = (s.line src).tx.urgent from if_neg hs]
    have hrunM : takenAt (picks false chosen) (s.line src).tx.normal = takenAt (picks false chosen) normal := by
      by_cases hs : selector = 0#8
      · have hnone := picks_eq_false hchosen false (if_pos hs)
        rw [(takenAt_of_false hnone _).1, (takenAt_of_false hnone _).1]
      · rw [show normal = (s.line src).tx.normal from if_neg hs]
    have hmoved := moved_moveChosen hne p chosen s
    rw [hrunU, hrunM] at hmoved
    have hfirst := @first_of_picks s urgent normal room chosen hchosen
    have hleftU : (u.line src).tx.urgent = takenAt (fun k => !picks true chosen k) (s.line src).tx.urgent := by
      rw [hmoved.source]
    have hleftM : (u.line src).tx.normal = takenAt (fun k => !picks false chosen k) (s.line src).tx.normal := by
      rw [hmoved.source]
    have holder (b : Bool) {j q : Nat} (hj : (if b then urgent else normal)[q]? = some j) (hq : picks b chosen q = false) :
        ∀ i ∈ takenAt (picks true chosen) urgent ++ takenAt (picks false chosen) normal, age j ≤ age i := by
      intro i hi
      have hle {a : Bool} {p : Nat} (hi : (if a then urgent else normal)[p]? = some i) (hp : picks a chosen p = true) :
          age j ≤ age i := by
        rcases hfirst a b hi hj hp hq with h | ⟨h, -⟩
        · exact Nat.le_of_lt h
        · exact Nat.le_of_eq h
      rcases List.mem_append.mp hi with hi | hi <;> obtain ⟨p, hp, hpick⟩ := mem_takenAt.mp hi
      · exact hle (a := true) hp hpick
      · exact hle (a := false) hp hpick
    refine ⟨u, takenAt (picks true chosen) urgent, takenAt (picks false chosen) normal, picks true chosen, picks false chosen,
      ⟨rfl, rfl, fun hs => ?_, fun hs => ?_, fun p q i j hi hj hp hq => ?_, fun p q i j hi hj hp hq => ?_,
        fun p q i j hi hj hp hq => ?_⟩, hexec, (length_taken hchosen).trans hchosen.length, taken_sublist _ _, taken_sublist _ _,
      ?_, ?_, ?_, ?_, fun hs i hi j hj => ?_, fun hs i hi j hj => ?_, ?_, ?_, hmoved.frames, fun m => ?_, hmoved.lines,
      lineSide_moveChosen .., hmoved.freeCells, hmoved.octets, hmoved.tags, hmoved.completion, hmoved.replies⟩
    · rw [hleftU, show urgent = (s.line src).tx.urgent from if_neg hs]
      rfl
    · rw [hleftM, show normal = (s.line src).tx.normal from if_neg hs]
      rfl
    · rcases hfirst true true hi hj hp hq with h | ⟨h, hahead | ⟨-, hahead⟩⟩
      · exact .inl h
      · exact absurd hahead.2 (by simp [Candidate.at])
      · exact .inr ⟨h, hahead⟩
    · rcases hfirst false false hi hj hp hq with h | ⟨h, hahead | ⟨-, hahead⟩⟩
      · exact .inl h
      · exact absurd hahead.1 (by simp [Candidate.at])
      · exact .inr ⟨h, hahead⟩
    · rcases hfirst false true hi hj hp hq with h | ⟨-, hahead | ⟨hahead, -⟩⟩
      · exact h
      · exact absurd hahead.1 (by simp [Candidate.at])
      · exact absurd hahead (by simp [Candidate.at])
    · rw [hleftU]; exact taken_sublist _ _
    · rw [hleftM]; exact taken_sublist _ _
    · rw [hleftU, ← hrunU]; exact taken_perm _ _
    · rw [hleftM, ← hrunM]; exact taken_perm _ _
    · rw [hleftU, ← show urgent = (s.line src).tx.urgent from if_neg hs] at hj
      obtain ⟨q, hq, hpick⟩ := mem_takenAt.mp hj
      exact holder true hq (by simpa using hpick) i hi
    · rw [hleftM, ← show normal = (s.line src).tx.normal from if_neg hs] at hj
      obtain ⟨q, hq, hpick⟩ := mem_takenAt.mp hj
      exact holder false hq (by simpa using hpick) i hi
    · rw [hmoved.destination]
      by_cases hp : position = 0#8 <;> simp [p, hp, placeRun]
    · rw [hmoved.destination]
      by_cases hp : position = 0#8 <;> simp [p, hp, placeRun]
    · by_cases hms : m = src
      · rw [hms, hmoved.source]
      · by_cases hmd : m = dst
        · rw [hmd, hmoved.destination]
        · rw [hmoved.lines m hms hmd]

end Sys2Proof.Machine

end

section
-- The proofs below are checked one after another: in parallel each waits for the others with a thread of its own.
set_option Elab.async false

/-! PROOFS. The two CRCs bit by bit, and the check of the line CRC (3.6, 4.4, 8.2). -/

namespace Sys2Proof.Machine

/-! ## The registers take the bits one after another -/

/-- One step of the line CRC register with the next bit, most significant first (R62). -/
def lineCrcStep (r : Crc) (bit : Bool) : Crc := (r <<< 1) ^^^ (if r.msb != bit then 0x8005#16 else 0#16)

/-- One step of the record CRC register with the next bit, least significant first (R151). -/
def recordCrcStep (r : Crc) (bit : Bool) : Crc := (r >>> 1) ^^^ (if r.getLsbD 0 != bit then 0x8408#16 else 0#16)

/-- The first k bits of a word, most significant first. -/
def topBits : Nat → Crc → List Bool
  | 0, _ => []
  | k + 1, x => x.msb :: topBits k (x <<< 1)

/-- The first k bits of a word, least significant first. -/
def lowBits : Nat → Crc → List Bool
  | 0, _ => []
  | k + 1, x => x.getLsbD 0 :: lowBits k (x >>> 1)

/-- The shift is linear: a word added to the register beforehand enters it bit by bit. -/
theorem lineCrcShift_xor (r x : Crc) : lineCrcShift (r ^^^ x) = lineCrcStep r x.msb ^^^ (x <<< 1) := by
  have hmsb : (r ^^^ x).msb = (r.msb != x.msb) := BitVec.msb_xor
  unfold lineCrcShift lineCrcStep
  rw [hmsb, BitVec.shiftLeft_xor_distrib]
  cases (r.msb != x.msb)
  · simp
  · simp only [if_true, BitVec.xor_assoc]
    rw [BitVec.xor_comm (x <<< 1)]

theorem recordCrcShift_xor (r x : Crc) : recordCrcShift (r ^^^ x) = recordCrcStep r (x.getLsbD 0) ^^^ (x >>> 1) := by
  have hlow : (r ^^^ x).getLsbD 0 = (r.getLsbD 0 != x.getLsbD 0) := BitVec.getLsbD_xor
  unfold recordCrcShift recordCrcStep
  rw [hlow, BitVec.ushiftRight_xor_distrib]
  cases (r.getLsbD 0 != x.getLsbD 0)
  · simp
  · simp only [if_true, BitVec.xor_assoc]
    rw [BitVec.xor_comm (x >>> 1)]

theorem lineCrcShifts_xor (k : Nat) (r x : Crc) :
    lineCrcShifts k (r ^^^ x) = (topBits k x).foldl lineCrcStep r ^^^ (x <<< k) := by
  induction k generalizing r x with
  | zero => simp [lineCrcShifts, topBits]
  | succ k ih =>
    rw [lineCrcShifts, lineCrcShift_xor, ih, topBits, List.foldl_cons, ← BitVec.shiftLeft_add, Nat.add_comm 1 k]

theorem recordCrcShifts_xor (k : Nat) (r x : Crc) :
    recordCrcShifts k (r ^^^ x) = (lowBits k x).foldl recordCrcStep r ^^^ (x >>> k) := by
  induction k generalizing r x with
  | zero => simp [recordCrcShifts, lowBits]
  | succ k ih =>
    rw [recordCrcShifts, recordCrcShift_xor, ih, lowBits, List.foldl_cons, ← BitVec.shiftRight_add, Nat.add_comm 1 k]

theorem topBits_octet (b : Byte) : topBits 8 (b.setWidth 16 <<< 8) = (List.range 8).map (fun i => b.getLsbD (7 - i)) := by
  simp [topBits, List.range_succ, BitVec.msb_eq_getLsbD_last]

theorem lowBits_octet (b : Byte) : lowBits 8 (b.setWidth 16) = (List.range 8).map (fun i => b.getLsbD i) := by
  simp [lowBits, List.range_succ]

theorem lineCrcOctet_eq (r : Crc) (b : Byte) :
    lineCrcOctet r b = ((List.range 8).map (fun i => b.getLsbD (7 - i))).foldl lineCrcStep r := by
  have hgone : (b.setWidth 16 <<< 8 : Crc) <<< 8 = 0#16 := by
    rw [← BitVec.shiftLeft_add]
    exact BitVec.shiftLeft_eq_zero (by omega)
  rw [lineCrcOctet, lineCrcShifts_xor, hgone, BitVec.xor_zero, topBits_octet]

theorem recordCrcOctet_eq (r : Crc) (b : Byte) :
    recordCrcOctet r b = ((List.range 8).map (fun i => b.getLsbD i)).foldl recordCrcStep r := by
  have hgone : (b.setWidth 16 : Crc) >>> 8 = 0#16 := by
    apply BitVec.eq_of_toNat_eq
    rw [BitVec.toNat_ushiftRight, BitVec.toNat_setWidth, Nat.mod_eq_of_lt (by omega), Nat.shiftRight_eq_div_pow]
    simp only [BitVec.toNat_ofNat]
    omega
  rw [recordCrcOctet, recordCrcShifts_xor, hgone, BitVec.xor_zero, lowBits_octet]

/-! ## The two octets of a CRC -/

theorem highFirst_eq_iff {v : Nat} (h : v < 65536) (high low : Byte) :
    highFirst v = [high, low] ↔ v = 256 * high.toNat + low.toNat := by
  have hhigh := high.isLt
  have hlow := low.isLt
  simp only [highFirst, octet, List.cons.injEq, and_true, ← BitVec.toNat_inj, BitVec.toNat_ofNat]
  omega

theorem highFirst_not (c : Crc) : highFirst c.toNat ≠ highFirst (~~~ c).toNat := by
  intro h
  have hc := c.isLt
  have hnot : (~~~ c).toNat = 65535 - c.toNat := by rw [BitVec.toNat_not]
  have heq := (highFirst_eq_iff hc (octet ((~~~ c).toNat / 256)) (octet (~~~ c).toNat)).mp h
  simp only [octet, BitVec.toNat_ofNat, hnot] at heq
  omega

/-- Settles O28: the shifts are linear in the register, and the check compares the two octets of the CRC. -/
theorem lineCrcSentIsChecked : Obligations.LineCrcSentIsChecked := by
  refine ⟨fun octets => ?_, fun octets => ?_, fun octets => ?_, fun length data high low => ⟨rfl, ?_, highFirst_not _⟩⟩
  · have hsplit (c : Nat) : gapCrcPasses (octets ++ highFirst c) = decide (highFirst (lineCrc octets).toNat = highFirst c) := by
      have hlength : (octets ++ highFirst c).length - 2 = octets.length := by simp [highFirst]
      unfold gapCrcPasses
      simp only [hlength, List.take_left, List.drop_left]
    rw [hsplit, hsplit]
    exact ⟨decide_eq_true rfl, decide_eq_false (highFirst_not _)⟩
  · rw [List.foldl_flatMap]
    exact List.foldl_ext _ _ _ fun r b _ => lineCrcOctet_eq r b
  · rw [List.foldl_flatMap]
    exact List.foldl_ext _ _ _ fun r b _ => recordCrcOctet_eq r b
  · exact highFirst_eq_iff (BitVec.isLt _) high low

end Sys2Proof.Machine

end

section
-- The proofs below are checked one after another: in parallel each waits for the others with a thread of its own.
set_option Elab.async false

/-! PROOFS. The output pins of the lines and of the host link (3.4, 3.5, 3.11, 8.1). -/

namespace Sys2Proof.Machine

/-! ## The levels of a line (R69, R70) -/

theorem lreq_of_closed {s : State} {n : LineNo} (h : (s.line n).state = .closed) : s.lreq n = false := by
  simp [State.lreq, h]

theorem ldrv_of_closed {s : State} {n : LineNo} (h : (s.line n).state = .closed) : s.ldrv n = false := by
  simp [State.ldrv, h]

theorem lclkDriven_of_closed {s : State} {n : LineNo} (h : (s.line n).state = .closed) : s.lclkDriven n = false := by
  simp [State.lclkDriven, h]

theorem heldByClearAlone_iff (s : State) (l : Line) (hstate : l.tx.state = .held) : heldByClearAlone s l = true ↔
    l.tx.pendingBreak = none ∧ (∃ i, IsCandidate s l i) ∧ l.config.gateTx = true ∧ l.clear = false ∧ l.held = false := by
  have hcandidate : (candidateFrame s l).isSome = true ↔ ∃ i, IsCandidate s l i := by
    simp only [Option.isSome_iff_exists, candidateFrame_eq_some_iff]
  simp only [heldByClearAlone, hstate, decide_true, Bool.true_and, Bool.and_eq_true, Option.isNone_iff_eq_none, hcandidate,
    Line.clearGate, Bool.not_eq_true', and_assoc]

theorem lreq_frame_iff {s : State} {n : LineNo} (hrunning : s.rstLow = false) (hopen : (s.line n).state ≠ .closed)
    (hmode : (s.line n).config.requestMode = .frame) :
    let l := s.line n
    s.lreq n = true ↔ (l.tx.state = .leadin ∨ l.tx.state = .data ∨ l.tx.state = .trailer) ∨
      (l.tx.state = .gap ∧ l.tx.gapAfterBreak = false) ∨
      (l.tx.state = .held ∧ l.tx.pendingBreak = none ∧ (∃ i, IsCandidate s l i) ∧ l.config.gateTx = true ∧ l.clear = false ∧
        l.held = false) := by
  intro l
  cases hstate : l.tx.state with
  | held =>
    have hlreq : s.lreq n = heldByClearAlone s l := by
      simp [State.lreq, hrunning, hopen, hmode, show (s.line n).tx.state = .held from hstate, l]
    rw [hlreq, heldByClearAlone_iff s l hstate]
    simp
  | off | idle | leadin | data | trailer | gap | breaking =>
    simp [State.lreq, hrunning, hopen, hmode, show (s.line n).tx.state = _ from hstate, l]

theorem ldrv_iff {s : State} {n : LineNo} (hrunning : s.rstLow = false) (hopen : (s.line n).state ≠ .closed) :
    let l := s.line n
    s.ldrv n = true ↔ l.config.duplex = .full ∨ (l.tx.state = .leadin ∨ l.tx.state = .data ∨ l.tx.state = .trailer) ∨
      l.tx.state = .gap ∨ l.tx.state = .breaking := by
  intro l
  cases hduplex : (s.line n).config.duplex with
  | full => simp [State.ldrv, hrunning, hopen, hduplex, l]
  | half t =>
    cases hstate : (s.line n).tx.state <;> simp [State.ldrv, hrunning, hopen, hduplex, hstate]

theorem lclkDriven_iff {s : State} {n : LineNo} (hrunning : s.rstLow = false) (hopen : (s.line n).state ≠ .closed) :
    s.lclkDriven n = true ↔ ∃ pattern leadIn, (s.line n).config.framing = .sync .internal pattern leadIn := by
  cases hframing : (s.line n).config.framing with
  | gap parity stop g => simp [State.lclkDriven, hrunning, hopen, hframing]
  | sync clock pattern leadIn => cases clock <;> simp [State.lclkDriven, hrunning, hopen, hframing]

/-! ## The bits of octets and characters (R59, R60, R149) -/

theorem octetOnLine_highFirst (v : BitVec 16) :
    octetOnLine (octet (v.toNat / 256)) ++ octetOnLine (octet v.toNat) = (List.range 16).map (fun k => v.getLsbD (15 - k)) := by
  have h := patternOnLine_eq v.toNat
  simp only [patternOnLine, highFirst, List.flatMap_cons, List.flatMap_nil, List.append_nil] at h
  rw [h]
  rfl

theorem characterOnLine_eq (parity : Parity) (stop : Nat) (b : Byte) :
    characterOnLine parity stop b = false :: (List.range 8).map (fun k => b.getLsbD k) ++
      (match parity with
        | .none => []
        | .even => [decide (onesCount b % 2 = 1)]
        | .odd => [decide (onesCount b % 2 = 0)]) ++ List.replicate stop true := by
  cases parity <;> rfl

theorem readHostCharacter_samples (b : Byte) (stop : Bool) :
    readHostCharacter (false :: (List.range 8).map (fun k => b.getLsbD k) ++ [stop]) = some (b, !stop) := by
  have hread := (readCharacter_parts (Vector.ofFn fun k : Fin 8 => b.getLsbD k.val) false stop).1
  have hbits : (Vector.ofFn fun k : Fin 8 => b.getLsbD k.val).toList = (List.range 8).map (fun k => b.getLsbD k) := rfl
  rw [hbits] at hread
  rw [readHostCharacter, hread, Option.map_some, receivedCharacter_eq (b := b) fun k => by simp]

/-! ## The signal on LTXDn (Table 3.1) -/

theorem ltxd_dataOctet {s : State} {n : LineNo} {b : Byte} (hrunning : s.rstLow = false) (hstate : (s.line n).tx.state = .data)
    (hoctet : (s.line n).tx.octet = some b) : s.ltxd n = .dataOctet b := by
  simp [State.ltxd, hrunning, hstate, dataSignal, hoctet]

theorem ltxd_trailer {s : State} {n : LineNo} (hrunning : s.rstLow = false) (hstate : (s.line n).tx.state = .trailer) :
    s.ltxd n = .crcOctets (octet ((s.line n).tx.trailer.toNat / 256)) (octet (s.line n).tx.trailer.toNat) := by
  simp [State.ltxd, hrunning, hstate]

theorem aborted_iff (s : State) (l : Line) :
    aborted s l = true ↔ ∃ i r, l.tx.current = some i ∧ s.frame i = some r ∧ r.outcome ≠ none := by
  unfold aborted
  cases hi : l.tx.current with
  | none => simp
  | some i => cases hr : s.frame i <;> simp [hr, Option.isSome_iff_ne_none]

/-- Settles O11: the levels by the state of the line, the signal and its bits by the state of the transmitter and the framing, and
the characters of the host link. -/
theorem outputPins : Obligations.OutputPins := by
  refine ⟨fun t => by cases t <;> rfl, fun s n hrunning => ?signals, fun b stop => ?character⟩
  case character =>
    have hbits : hostCharacter b = false :: (List.range 8).map (fun k => b.getLsbD k) ++ [true] := by
      simp [hostCharacter, characterOnLine]
    have htake : (hostCharacter b).take 9 = false :: (List.range 8).map (fun k => b.getLsbD k) := by
      rw [hbits]
      simp [List.range_succ]
    refine ⟨by rw [hbits]; simp, rfl, ?_, ?_⟩
    · rw [htake]
      exact readHostCharacter_samples b stop
    · rw [hbits]
      exact readHostCharacter_samples b true
  case signals =>
    intro l aborted frameOnLine
    refine ⟨fun hclosed => ⟨lreq_of_closed hclosed, ldrv_of_closed hclosed, lclkDriven_of_closed hclosed⟩,
      fun hopen => ⟨fun hmode => ?requestLine, lreq_frame_iff hrunning hopen, ldrv_iff hrunning hopen, lclkDriven_iff hrunning hopen⟩,
      fun hstate => ?off, fun hstate => ?breaking, fun b hstate hoctet => ltxd_dataOctet hrunning hstate hoctet,
      fun hstate => ltxd_trailer hrunning hstate, fun clock pattern leadIn hframing => ?sync,
      fun parity stop g hframing => ?gap, fun hnone => ?quiet, fun k hk => ?sending⟩
    case requestLine =>
      simp [State.lreq, hrunning, show (s.line n).state ≠ .closed from hopen, show (s.line n).config.requestMode = .line from hmode]
    case off =>
      have hltxd : s.ltxd n = .marking := by simp [State.ltxd, hrunning, show (s.line n).tx.state = .off from hstate]
      exact ⟨hltxd, by rw [State.ltxdBits, hltxd]; rfl⟩
    case breaking =>
      have hltxd : s.ltxd n = .spacing := by simp [State.ltxd, hrunning, show (s.line n).tx.state = .breaking from hstate]
      exact ⟨hltxd, by rw [State.ltxdBits, hltxd]; rfl⟩
    case quiet =>
      have hbits : s.htxd = none := by simp [State.htxd, hnone]
      exact ⟨hbits, by rw [State.htxdBits, hbits]; rfl⟩
    case sending =>
      have hbits : s.htxd = some k.octets := by simp [State.htxd, hrunning, hk]
      refine ⟨hbits, ?_⟩
      rw [State.htxdBits, hbits]
      refine List.flatMap_congr fun b _ => ?_
      simp [hostCharacter, characterOnLine]
    case sync =>
      intro patternBits octetBits
      have hpattern : patternOnLine pattern = patternBits := patternOnLine_eq pattern
      have hbits {x : LineSignal} (hx : s.ltxd n = x) : s.ltxdBits n = x.bits (.sync clock pattern leadIn) := by
        rw [State.ltxdBits, hx, show (s.line n).config.framing = _ from hframing]
      refine ⟨fun hstate => ?_, fun hstate habort => ?_, fun hstate habort => ?_, fun i r hstate hoctet hi hr => ?_,
        fun b hstate hoctet => hbits (ltxd_dataOctet hrunning hstate hoctet), fun hstate => ?_, fun hstate => ?_⟩
      · have hltxd : s.ltxd n = .idlePatterns pattern := by
          rcases hstate with hstate | hstate <;>
            simp [State.ltxd, hrunning, show (s.line n).tx.state = _ from hstate, show (s.line n).config.framing = _ from hframing,
              Framing.idleSignal]
        exact ⟨hltxd, (hbits hltxd).trans hpattern⟩
      · have hltxd : s.ltxd n = .leadinPatterns pattern leadIn := by
          simp [State.ltxd, hrunning, show (s.line n).tx.state = _ from hstate, show (s.line n).config.framing = _ from hframing,
            Framing.leadinSignal, (aborted_iff s (s.line n)).not.mpr habort]
        exact ⟨hltxd, (hbits hltxd).trans (by rw [← hpattern]; rfl)⟩
      · have hltxd : s.ltxd n = .patternInProgress pattern := by
          simp [State.ltxd, hrunning, show (s.line n).tx.state = _ from hstate, show (s.line n).config.framing = _ from hframing,
            Framing.leadinSignal, (aborted_iff s (s.line n)).mpr habort]
        exact ⟨hltxd, (hbits hltxd).trans hpattern⟩
      · have hltxd : s.ltxd n = .lengthField (octet (r.declared.getD r.stored / 256)) (octet (r.declared.getD r.stored)) := by
          simp [State.ltxd, hrunning, show (s.line n).tx.state = _ from hstate, dataSignal,
            show (s.line n).tx.octet = none from hoctet, Line.isSync, show (s.line n).config.framing = _ from hframing,
            show (s.line n).tx.current = some i from hi, hr, FrameRecord.announced]
        exact ⟨hltxd, hbits hltxd⟩
      · exact (hbits (ltxd_trailer hrunning hstate)).trans (octetOnLine_highFirst l.tx.trailer)
      · have hltxd : s.ltxd n = .closingPattern pattern := by
          simp [State.ltxd, hrunning, show (s.line n).tx.state = _ from hstate, show (s.line n).config.framing = _ from hframing,
            Framing.gapSignal]
        exact ⟨hltxd, (hbits hltxd).trans hpattern⟩
    case gap =>
      intro parityBits character
      have hcharacter (b : Byte) : characterOnLine parity stop b = character b := characterOnLine_eq parity stop b
      have hbits {x : LineSignal} (hx : s.ltxd n = x) : s.ltxdBits n = x.bits (.gap parity stop g) := by
        rw [State.ltxdBits, hx, show (s.line n).config.framing = _ from hframing]
      refine ⟨fun hstate => ?_, fun hstate hoctet => ?_,
        fun b hstate hoctet => (hbits (ltxd_dataOctet hrunning hstate hoctet)).trans (hcharacter b), fun hstate => ?_, fun hstate => ?_⟩
      · have hltxd : s.ltxd n = .marking := by
          rcases hstate with hstate | hstate <;>
            simp [State.ltxd, hrunning, show (s.line n).tx.state = _ from hstate, show (s.line n).config.framing = _ from hframing,
              Framing.idleSignal]
        exact ⟨hltxd, hbits hltxd⟩
      · have hltxd : s.ltxd n = .betweenOctets := by
          simp [State.ltxd, hrunning, show (s.line n).tx.state = _ from hstate, dataSignal,
            show (s.line n).tx.octet = none from hoctet, Line.isSync, show (s.line n).config.framing = _ from hframing]
        exact ⟨hltxd, hbits hltxd⟩
      · rw [hbits (ltxd_trailer hrunning hstate), ← hcharacter, ← hcharacter]
        rfl
      · have hltxd : s.ltxd n = .gapMarking g := by
          simp [State.ltxd, hrunning, show (s.line n).tx.state = _ from hstate, show (s.line n).config.framing = _ from hframing,
            Framing.gapSignal]
        exact ⟨hltxd, hbits hltxd⟩

end Sys2Proof.Machine

end

section
-- The proofs below are checked one after another: in parallel each waits for the others with a thread of its own.
set_option Elab.async false

/-! PROOFS. What a law must survive to be kept by every step: the pieces of which the events are made, and the walk over the events
that puts them together. -/

namespace Sys2Proof.Machine

/-! ## The events of a line -/

/-- The effects on line n, before its judgments, of the events that come about on it. -/
inductive LineEffect (n : LineNo) : Bool → State → State → Prop
  | none (s : State) : LineEffect n false s s
  | leadinEnd {s : State} {i : Nat} (hstate : (s.line n).tx.state = .leadin) (hcurrent : (s.line n).tx.current = some i) :
      LineEffect n false s (endLeadin n i s)
  | octetBoundary {s : State} {i : Nat} (hstate : (s.line n).tx.state = .data) (hcurrent : (s.line n).tx.current = some i) :
      LineEffect n false s (octetBoundary n i s)
  | frameEnd {s : State} {i : Nat} (hstate : (s.line n).tx.state = .trailer) (hcurrent : (s.line n).tx.current = some i) :
      LineEffect n false s (endFrame n i s)
  | gapEnd {s : State} (hstate : (s.line n).tx.state = .gap) : LineEffect n false s (s.modLine n endGap)
  | breakEnd {s : State} (hstate : (s.line n).tx.state = .breaking) : LineEffect n true s (endBreak n .ok s)
  | turnaroundEnd (s : State) :
      LineEffect n true s (s.modLine n (fun l => { l with tx := { l.tx with turnaroundTimer := Option.none } }))
  | expiry (s : State) :
      LineEffect n true s (expireLine n (s.modLine n (fun l => { l with tx := { l.tx with expiryDue := false } })))
  | drainEnd {s : State} (hstate : (s.line n).state = .closing) : LineEffect n true s (flushHandling n s)
  | clear (s : State) (high : Bool) : LineEffect n false s (s.modLine n (fun l => { l with clear := high }))
  | carrier (s : State) (high : Bool) :
      LineEffect n false s (carrierEffect n high (s.modLine n (fun l => { l with carrier := high })))
  | characterStart {s : State} (hdue : (s.line n).awaitsStart = true) : LineEffect n false s (startCharacter n s)
  | characterComplete {s : State} (hdue : (s.line n).inCharacter = true) (data : OctetBits) (parityBit stopBit : Bool) :
      LineEffect n false s (completeCharacter n data parityBit stopBit s)
  | gap {s : State} (hdue : inGap .assembling (s.line n) = true ∨ inGap .discard (s.line n) = true) :
      LineEffect n false s (takeGap n s)
  | breakDetected {s : State} (hdue : (s.line n).mayBreak = true) : LineEffect n false s (detectBreak n s)
  | marking {s : State} (hdue : inGap .breaking (s.line n) = true ∨ (s.line n).mayBreak = true) :
      LineEffect n false s (returnToMarking n s)
  | patternMatch {s : State} (hdue : inSync .seek (s.line n) = true) :
      LineEffect n false s (s.modLine n (fun l => { l with rx := { l.rx with state := .synced, patternRequired := false } }))
  | pair {s : State} (hdue : inSync .synced (s.line n) = true) (high low : Byte) : LineEffect n false s (takePair n high low s)
  | syncOctet {s : State} (hdue : inSync .assembling (s.line n) = true ∨ inSync .discard (s.line n) = true) (b : Byte) :
      LineEffect n false s (takeSyncOctet n b s)

/-! ## The pieces of the events -/

/-- A law that the pieces of the events keep, each in the circumstances in which it comes. -/
structure Kept (P : State → Prop) : Prop where
  queue : ∀ {s : State} (rest : List Instr), P s → P { s with pending := rest }
  power : ∀ (rate : HostRate) {s : State}, P s →
    P (State.powerOn rate (s.lines.map (fun l => Line.reset l.carrier l.clear)) s.pending)
  rst : ∀ {s : State}, P s → P { s with rstLow := true, link := { s.link with sending := none } }
  levels : ∀ {s : State} (n : LineNo) (f : Line → Line), s.rstLow = true →
    (∀ l, f l = { l with carrier := (f l).carrier, clear := (f l).clear }) → P s → P (s.modLine n f)
  serve : ∀ {s : State} (atTick : Bool), P s → P (serve atTick s)
  reception : ∀ {s : State} (x : Reception) (count : Nat), P s →
    P (s.modLink (fun h => { h with reception := x, crcErrors := count }))
  tick : ∀ {s : State}, s.rstLow = false → P s → P (countTick s)
  offer : ∀ {s : State}, P s → P (offerAgain s)
  stall : ∀ {s : State} {k : InboundRecord}, s.link.inbound.head? = some k → (k.kind = .command → isPlainReset k.payload = false) →
    P s → P (stallHead s)
  finish : ∀ {s : State}, P s → P (endExecution s)
  reply : ∀ {s : State} (r : Reply), s.occupied < 16 → P s → P (joinReply r s)
  body : ∀ {s : State} (c : CommandCode) (tag : Byte) (ps : List Byte), ps.length = c.paramLength →
    s.occupied < 16 ∨ c = .resetDevice → P s → P (commandBody c tag ps s)
  stray : ∀ {s : State}, P s → P (countStray s)
  reject : ∀ {s t : State} {g : Segment} {status : RejectStatus}, rejectFirst g status s = some t → P s → P t
  first : ∀ {s : State} {g : Segment} {n : LineNo} {i : Nat} (atTick : Bool), firstCheck g s = .ok (n, i) → P s →
    P (settleLine atTick n (acceptFirst g n i s))
  later : ∀ {s : State} (atTick : Bool) (g : Segment), P s → P (settleAt atTick (tagLine s g.tag) (laterSegment g s))
  settle : ∀ {s : State} (n : LineNo), P s → P (settleLine false n s)
  owing : ∀ {s : State}, P s → P (owingResync s)
  heard : ∀ {s : State}, s.link.state = .up → P s → P (s.modLink HostLink.restartSilence)
  missed : ∀ {s : State}, P s → P (countAckError s)
  release : ∀ {s : State} {b : Byte} {a : Seq} (room : Byte), s.link.state = .up → s.link.ackValue b = some a → P s →
    P ((s.link.retain.take (a - s.link.vA).toNat).foldl releaseRecord (s.modLink (fun h => h.acknowledge a room)))
  nak : ∀ {s : State} {b : Byte} {a : Seq} (room : Byte), s.link.state = .up → s.link.ackValue b = some a → P s →
    P (takeAck a room s) → P ((takeAck a room s).modLink (fun h =>
      if a = h.vS then h else { h with cursor := some a, retransTimer := startTimer false h.retransMs }))
  judge : ∀ {s : State} (kind : SequencedKind) (r : HostRecord), P s → P (s.modLink (fun h => h.judgeSequenced kind r))
  linkReset : ∀ {s : State} {r : HostRecord} {p : HelloParams}, helloParams r = some p → P s → P (linkReset p r.room s)
  retransmission : ∀ {s : State}, s.link.state = .up → s.link.retransTimer = some 0 → P s → P (s.modLink HostLink.retransExpiry)
  silence : ∀ {s : State}, P s → P (s.modLink HostLink.goDown)
  sendingEnd : ∀ {s : State}, P s → P (s.modLink (fun h => { h with sending := none }))
  line : ∀ {s t : State} {n : LineNo} {atTick : Bool}, s.rstLow = false → LineEffect n atTick s t → P s → P (settleLine atTick n t)

/-- What each step of a fold keeps, the fold keeps. -/
theorem foldl_keeps {P : State → Prop} {β : Type} {f : State → β → State} (hf : ∀ s b, P s → P (f s b)) (bs : List β) {s : State} (hs : P s) :
    P (bs.foldl f s) := by
  induction bs generalizing s with
  | nil => exact hs
  | cons b bs ih => exact ih (hf s b hs)

namespace Kept

variable {P : State → Prop} (h : Kept P)
include h

/-! ## Execution at the head -/

theorem knownCommand {s : State} (c : CommandCode) {p : List Byte} (hcode : commandOf p = some c)
    (hplace : s.occupied < 16 ∨ isPlainReset p = true) (hs : P s) : P (runKnown c (commandBody c) p s) := by
  match p, hcode, hplace with
  | [], hcode, _ => cases hcode
  | [code], _, hplace =>
    have hroom : s.occupied < 16 := hplace.resolve_right (by simp [isPlainReset])
    exact h.finish (h.reply _ hroom hs)
  | code :: tag :: ps, hcode, hplace =>
    unfold runKnown
    dsimp only
    split
    next hlength =>
      refine h.finish (h.body c tag ps hlength (hplace.imp_right fun hplain => ?_) hs)
      simp only [isPlainReset, Bool.and_eq_true, decide_eq_true_eq] at hplain
      exact Option.some.inj (hcode.symm.trans hplain.1)
    next hlength =>
      have hroom : s.occupied < 16 := hplace.resolve_right fun hplain => hlength (by
        simp only [isPlainReset, Bool.and_eq_true, decide_eq_true_eq, List.length_cons] at hplain
        obtain rfl : c = .resetDevice := Option.some.inj (hcode.symm.trans hplain.1)
        have := hplain.2
        simp only [CommandCode.paramLength]
        omega)
      exact h.finish (h.reply _ hroom hs)

theorem unknownCommand {s : State} {p : List Byte} (hroom : s.occupied < 16) (hs : P s) : P (runUnknown p s) := by
  cases p <;> exact h.finish (h.reply _ hroom hs)

theorem takeCommand {s : State} {p : List Byte} (hhead : s.link.inbound.head? = some { kind := .command, payload := p })
    (hs : P s) : P (takeCommand runCommand p s) := by
  unfold Machine.takeCommand
  split
  next hstalls =>
    simp only [commandStalls, Bool.and_eq_true, Bool.not_eq_true'] at hstalls
    exact h.stall hhead (fun _ => hstalls.2) hs
  next hstalls =>
    simp only [commandStalls, Bool.and_eq_true, Bool.not_eq_true', decide_eq_true_eq, not_and, Bool.not_eq_false,
      Config.replyPlaces] at hstalls
    have hplace : s.occupied < 16 ∨ isPlainReset p = true := by
      by_cases hroom : s.occupied < 16
      · exact .inl hroom
      · exact .inr (hstalls (Nat.not_lt.mp hroom))
    unfold runCommand
    split
    next hnone =>
      refine h.unknownCommand (hplace.resolve_right fun hplain => ?_) hs
      simp [isPlainReset, hnone] at hplain
    next c hcode => exact h.knownCommand c hcode hplace hs

theorem runSegment {s : State} {p : List Byte} (atTick : Bool)
    (hhead : s.link.inbound.head? = some { kind := .txSegment, payload := p }) (hs : P s) : P (runSegment atTick p s) := by
  unfold Machine.runSegment
  split
  · exact h.finish (h.stray hs)
  · split
    · split
      next hcheck => exact h.finish (h.first atTick hcheck hs)
      next status hcheck =>
        split
        next t ht => exact h.finish (h.reject ht hs)
        next => exact h.stall hhead nofun hs
    · exact h.finish (h.later atTick _ hs)

theorem rejudgeCommand {s : State} (hs : P s) : P (rejudgeCommand s) := by
  unfold Machine.rejudgeCommand
  split
  next p hstall =>
    refine h.takeCommand ?_ (h.offer hs)
    unfold HostLink.stalledHead at hstall
    split at hstall
    · exact hstall
    · cases hstall
  next => exact hs

theorem rejudgeSegment {s : State} (atTick : Bool) (hs : P s) : P (rejudgeSegment atTick s) := by
  unfold Machine.rejudgeSegment
  split
  next p hstall =>
    refine h.runSegment atTick ?_ (h.offer hs)
    unfold HostLink.stalledHead at hstall
    split at hstall
    · exact hstall
    · cases hstall
  next => exact hs

/-! ## Records from the host -/

theorem afterReleases {s : State} (acked : List Retained) (lines : List LineNo) (hs : P s) : P (afterReleases acked lines s) := by
  unfold Machine.afterReleases
  refine foldl_keeps (fun _ n => h.settle n) lines ?_
  have hcommand : P (if acked.any Retained.isReply then Machine.rejudgeCommand s else s) := by
    split
    · exact h.rejudgeCommand hs
    · exact hs
  split
  · exact h.rejudgeSegment false hcommand
  · exact hcommand

theorem takeAck {s : State} {b : Byte} {a : Seq} (room : Byte) (hup : s.link.state = .up) (ha : s.link.ackValue b = some a)
    (hs : P s) : P (takeAck a room s) :=
  h.afterReleases _ _ (h.release room hup ha hs)

theorem takeAckFields {s : State} (r : HostRecord) (hup : s.link.state = .up) (hs : P s) : P (takeAckFields r s) := by
  unfold Machine.takeAckFields
  split
  · exact h.missed hs
  next ha => exact h.takeAck r.room hup ha hs

theorem takeNak {s : State} (r : HostRecord) (hup : s.link.state = .up) (hs : P s) : P (takeNak r s) := by
  unfold Machine.takeNak
  split
  · exact h.missed hs
  next ha => exact h.nak r.room hup ha hs (h.takeAck r.room hup ha hs)

theorem takeHello {s : State} (r : HostRecord) (hs : P s) : P (takeHello r s) := by
  unfold Machine.takeHello
  split
  next hp => exact h.linkReset hp hs
  next =>
    refine h.owing ?_
    cases hstate : s.link.state with
    | up =>
      have hheard : s.modLink (fun k => if k.state = .up then k.restartSilence else k) = s.modLink HostLink.restartSilence := by
        simp only [State.modLink, hstate, if_true]
      rw [hheard]
      exact h.heard hstate hs
    | down =>
      have hsame : s.modLink (fun k => if k.state = .up then k.restartSilence else k) = s := by
        simp only [State.modLink, hstate, reduceCtorEq, if_false]
      rwa [hsame]

theorem byLinkState {take : State → State} (htake : ∀ s : State, s.link.state = .up → P s → P (take s)) {s : State} (hs : P s) :
    P (byLinkState take s) := by
  unfold Machine.byLinkState
  split
  · exact h.owing hs
  next hup =>
    refine htake _ ?_ (h.heard hup hs)
    simp only [State.modLink, HostLink.restartSilence]
    split <;> exact hup

theorem searching {s : State} (x : Reception) (hs : P s) : P (s.modLink (fun k => { k with reception := x })) :=
  h.reception x s.link.crcErrors hs

theorem takeChecked {take : State → State} (htake : ∀ s : State, P s → P (take s)) (t : HostType) (r : HostRecord) {s : State}
    (hs : P s) : P (takeChecked t r take s) := by
  unfold Machine.takeChecked
  split
  · exact hs
  · split
    · exact hs
    · unfold resumeSearch
      have htaken := h.serve false (htake _ (h.searching .searching hs))
      split
      · exact htaken
      · exact h.searching _ htaken

/-! ## The walk over the events -/

theorem commandEvent {own : Option CommandCode} {run : List Byte → State → State}
    (hrun : ∀ p, commandOf p = own → run p = runCommand p) {s : State} (hs : P s) : P (commandEvent own run s) := by
  unfold Machine.commandEvent
  split
  · exact hs
  next p hp =>
    split
    next hown =>
      have hhead : s.link.inbound.head? = some { kind := .command, payload := p } := by
        unfold State.commandAtHead at hp
        split at hp
        · cases hp
        · split at hp
          next hinbound => rw [hinbound, ← Option.some.inj hp]; rfl
          next => cases hp
      have hsame : Machine.takeCommand run p s = Machine.takeCommand runCommand p s := by
        simp only [Machine.takeCommand, hrun p hown]
      rw [hsame]
      exact h.serve false (h.takeCommand hhead hs)
    next => exact hs

theorem knownEvent (c : CommandCode) {s : State} (hs : P s) : P (knownEvent c (commandBody c) s) := by
  refine h.commandEvent (fun p hp => ?_) hs
  funext t
  simp only [runCommand, hp]

theorem lineEvent {n : LineNo} {atTick : Bool} {due : Line → Bool} {effect : State → State} {s : State}
    (heffect : due (s.line n) = true → LineEffect n atTick s (effect s)) (hs : P s) : P (lineEvent atTick n due effect s) := by
  unfold Machine.lineEvent
  split
  next hdue => exact h.serve atTick (h.line hdue.1 (heffect hdue.2) hs)
  next => exact hs

theorem onCurrent {n : LineNo} {x : TxState} {effect : Nat → State → State} {s : State}
    (heffect : ∀ i, (s.line n).tx.state = x → (s.line n).tx.current = some i → LineEffect n false s (effect i s)) (hs : P s) :
    P (Machine.lineEvent false n (fun l => decide (l.tx.state = x)) (Machine.onCurrent n effect) s) := by
  refine h.lineEvent (fun hdue => ?_) hs
  unfold Machine.onCurrent
  split
  · exact .none s
  next i hi => exact heffect i (of_decide_eq_true hdue) hi

theorem exec {c : Instr} {s t : State} (hs : P s) (hexec : exec c s = .next t) : P t := by
  cases c <;> obtain rfl := Host.Outcome.next.inj hexec
  case powerOnReset h1 h0 => exact h.power _ hs
  case rstAsserted => exact h.rst hs
  case tick =>
    split
    · exact hs
    next hrunning => exact h.serve true (h.rejudgeSegment true (h.tick (by simpa using hrunning) hs))
  case receiveRecordError octets bad =>
    split
    · exact hs
    · split
      · exact hs
      · exact h.serve false (h.reception _ _ hs)
  case hello r => exact h.takeChecked (fun u hu => h.takeHello r hu) _ _ hs
  case hostAck r => exact h.takeChecked (fun u hu => h.byLinkState (fun v hup hv => h.takeAckFields r hup hv) hu) _ _ hs
  case hostNak r => exact h.takeChecked (fun u hu => h.byLinkState (fun v hup hv => h.takeNak r hup hv) hu) _ _ hs
  case hostSequencedRecord kind r =>
    exact h.takeChecked (fun u hu => h.byLinkState (fun v hup hv => h.judge kind r (h.takeAckFields r hup hv)) hu) _ _ hs
  case txSegment =>
    split
    · exact hs
    · split
      next hinbound => exact h.serve false (h.runSegment false (by rw [hinbound]; rfl) hs)
      next => exact hs
  case unknownCommand =>
    refine h.commandEvent (fun p hp => ?_) hs
    funext t
    simp only [runCommand, hp]
  case identify => exact h.knownEvent .identify hs
  case setDevice => exact h.knownEvent .setDevice hs
  case queryDevice => exact h.knownEvent .queryDevice hs
  case resetDevice => exact h.knownEvent .resetDevice hs
  case openLine => exact h.knownEvent .openLine hs
  case closeLine => exact h.knownEvent .closeLine hs
  case queryLine => exact h.knownEvent .queryLine hs
  case ackCondition => exact h.knownEvent .ackCondition hs
  case sendBreak => exact h.knownEvent .sendBreak hs
  case seekLine => exact h.knownEvent .seekLine hs
  case cancelFrame => exact h.knownEvent .cancelFrame hs
  case redirect => exact h.knownEvent .redirect hs
  case setLine => exact h.knownEvent .setLine hs
  case leadinEnd n => exact h.onCurrent (fun i hstate hi => .leadinEnd hstate hi) hs
  case dataOctetBoundary n => exact h.onCurrent (fun i hstate hi => .octetBoundary hstate hi) hs
  case frameEnd n => exact h.onCurrent (fun i hstate hi => .frameEnd hstate hi) hs
  case gapEnd n => exact h.lineEvent (fun hdue => .gapEnd (of_decide_eq_true hdue)) hs
  case breakTimerExpiry n =>
    exact h.lineEvent (fun hdue => .breakEnd (of_decide_eq_true (Bool.and_eq_true_iff.mp hdue).1)) hs
  case turnaroundTimerExpiry n => exact h.lineEvent (fun _ => .turnaroundEnd s) hs
  case expiry n => exact h.lineEvent (fun _ => .expiry s) hs
  case drainTimerExpiry n =>
    exact h.lineEvent (fun hdue => .drainEnd (of_decide_eq_true (Bool.and_eq_true_iff.mp hdue).1)) hs
  case clearChange n high =>
    dsimp only
    split
    next hlow => exact h.levels n _ hlow (fun _ => rfl) hs
    next hrunning =>
      split
      · exact hs
      · exact h.serve false (h.line (by simpa using hrunning) (.clear s high) hs)
  case carrierChange n high =>
    dsimp only
    split
    next hlow => exact h.levels n _ hlow (fun _ => rfl) hs
    next hrunning =>
      split
      · exact hs
      · exact h.serve false (h.line (by simpa using hrunning) (.carrier s high) hs)
  case characterStart n => exact h.lineEvent (fun hdue => .characterStart hdue) hs
  case characterComplete n data parityBit stopBit => exact h.lineEvent (fun hdue => .characterComplete hdue data parityBit stopBit) hs
  case receiveGap n =>
    exact h.lineEvent (fun hdue => .gap (by simpa using (Bool.and_eq_true_iff.mp hdue).1)) hs
  case breakDetected n => exact h.lineEvent (fun hdue => .breakDetected hdue) hs
  case lineReturnsToMarking n => exact h.lineEvent (fun hdue => .marking (by simpa using hdue)) hs
  case patternMatch seen => exact h.lineEvent (fun hdue => .patternMatch (Bool.and_eq_true_iff.mp hdue).1) hs
  case pair n high low => exact h.lineEvent (fun hdue => .pair hdue _ _) hs
  case syncOctet n bits => exact h.lineEvent (fun hdue => .syncOctet (by simpa using hdue) _) hs
  case retransmissionTimerExpiry =>
    split
    next hdue => exact h.serve true (h.retransmission hdue.2.1 hdue.2.2 hs)
    next => exact hs
  case silenceTimerExpiry =>
    split
    · exact h.serve true (h.silence hs)
    · exact hs
  case sendingEnd =>
    split
    · exact h.serve false (h.sendingEnd hs)
    · exact hs

/-- What the pieces of the events keep, every step keeps. -/
theorem step {s t : State} (hs : P s) (hstep : step s = .next t) : P t :=
  step_keeps (fun _ rest => h.queue rest) (fun _ _ _ hu hexec => h.exec hu hexec) hs hstep

end Kept

end Sys2Proof.Machine

end

section
-- The proofs below are checked one after another: in parallel each waits for the others with a thread of its own.
set_option Elab.async false

/-! PROOFS. The laws of the host link: what each operation of the link does to them, and that nothing else touches the link. -/

namespace Sys2Proof.Machine

/-! ## The window -/

namespace HostLink

/-- An acknowledged value stands as far behind V(A) as records are acknowledged, at most the whole retain list. -/
theorem acked_le {h : HostLink} (hw : h.windowKept) {b : Byte} {a : Seq} (ha : h.ackValue b = some a) :
    (a - h.vA).toNat ≤ h.retain.length := by
  obtain ⟨hlength, hnext, -⟩ := hw
  obtain ⟨-, hle⟩ := ackValue_eq_some_iff.mp ha
  have hvS : (h.vS - h.vA).toNat = h.retain.length := by
    rw [hnext]
    bv_omega
  omega

theorem windowKept_acknowledge {h : HostLink} (hw : h.windowKept) {a : Seq} (ha : (a - h.vA).toNat ≤ h.retain.length)
    (room : Byte) : (h.acknowledge a room).windowKept := by
  unfold acknowledge
  split
  · exact hw
  · obtain ⟨hlength, hnext, hseqs⟩ := hw
    refine ⟨?length, ?next, List.ext_getElem ?count fun k hk _ => ?seq⟩
    case length => simp only [List.length_drop]; omega
    case next => simp only [List.length_drop]; bv_omega
    case count => simp
    case seq =>
      simp only [List.length_map, List.length_drop] at hk
      have hat : ((h.retain.map Retained.seq)[(a - h.vA).toNat + k]'(by rw [List.length_map]; omega)) =
          h.vA + BitVec.ofNat 6 ((a - h.vA).toNat + k) := by
        simp only [hseqs, List.getElem_map, List.getElem_range]
      simp only [List.getElem_map] at hat
      simp only [List.map_drop, List.getElem_drop, List.getElem_map, List.getElem_range, hat]
      bv_omega

theorem cursorKept_acknowledge {h : HostLink} (hw : h.windowKept) (hc : h.cursorKept) {a : Seq}
    (ha : (a - h.vA).toNat ≤ h.retain.length) (room : Byte) : (h.acknowledge a room).cursorKept := by
  unfold acknowledge
  split
  · exact hc
  · intro c hcursor
    obtain ⟨hlength, hnext, -⟩ := hw
    simp only [cursorAfter] at hcursor
    split at hcursor
    · cases hcursor
    next old hold =>
      obtain ⟨hup, hwithin⟩ := hc old hold
      refine ⟨hup, ?_⟩
      simp only [List.length_drop]
      split at hcursor
      · split at hcursor
        · cases hcursor
        next hleft =>
          obtain rfl : a = c := by simpa using hcursor
          have hmore : (a - h.vA).toNat ≠ h.retain.length := fun hall => hleft (by rw [hnext]; bv_omega)
          have hzero : (a - a).toNat = 0 := by simp
          omega
      next hbehind =>
        obtain rfl : old = c := by simpa using hcursor
        bv_omega

theorem sound_acknowledge {h : HostLink} (hs : h.sound) (hup : h.state = .up) {b : Byte} {a : Seq} (ha : h.ackValue b = some a)
    (room : Byte) : (h.acknowledge a room).sound := by
  obtain ⟨hwindow, hcursor, hretrans, hsilence, hstall, hinbound, -⟩ := hs
  have hle := acked_le hwindow ha
  refine ⟨windowKept_acknowledge hwindow hle room, cursorKept_acknowledge hwindow hcursor hle room, ?retrans, ?silence, ?stall,
    ?inbound, Nat.min_le_right ..⟩
  case retrans =>
    unfold acknowledge
    split
    · exact hretrans
    · cases h.retain.drop (a - h.vA).toNat <;> simp [retransTimerKept, startTimer, hup]
  case silence => unfold acknowledge; split <;> exact hsilence
  case stall => unfold acknowledge; split <;> exact hstall
  case inbound => unfold acknowledge; split <;> exact hinbound

theorem acknowledge_state (h : HostLink) (a : Seq) (room : Byte) : (h.acknowledge a room).state = h.state := by
  unfold acknowledge
  split <;> rfl

theorem acknowledge_vA (h : HostLink) (a : Seq) (room : Byte) : (h.acknowledge a room).vA = a := by
  unfold acknowledge
  split
  next hsame => exact hsame.symm
  next => rfl

/-- A resend from V(A) when records wait (R163). -/
theorem sound_resendFrom {h : HostLink} (hs : h.sound) (hup : h.state = .up) {a : Seq} (ha : h.vA = a) (hmore : a ≠ h.vS)
    (timer : Nat) : HostLink.sound { h with cursor := some a, retransTimer := some timer } := by
  obtain ⟨hwindow, -, -, hrest⟩ := hs
  obtain ⟨-, hnext, -⟩ := id hwindow
  have hne : h.retain ≠ [] := fun hnil => hmore (by simp [hnext, hnil, ha])
  have hzero : (a - h.vA).toNat = 0 := by simp [ha]
  refine ⟨hwindow, fun c hc => ?_, by simp [retransTimerKept, hne, hup], hrest⟩
  obtain rfl : a = c := by simpa using hc
  exact ⟨hup, by rw [hzero]; exact List.length_pos_iff.mpr hne⟩

/-- A new record takes V(S) (R162). -/
theorem sound_sendNew {h : HostLink} (hs : h.sound) (hup : h.state = .up) (hcursor : h.cursor = none) (hroom : h.retain.length < 8)
    (atTick : Bool) (c : Content) : HostLink.sound { h with
      retain := h.retain ++ [{ seq := h.vS, content := c }], vS := h.vS + 1
      retransTimer := if h.retain.isEmpty then startTimer atTick (10 * h.retransTimeout) else h.retransTimer } := by
  obtain ⟨⟨-, hnext, hseqs⟩, -, hretrans, hrest⟩ := hs
  refine ⟨⟨by simpa using hroom, ?next, ?seqs⟩, by simp [cursorKept, hcursor], ?retrans, hrest⟩
  case next => simp only [hnext, List.length_append, List.length_singleton]; bv_omega
  case seqs => simp [hseqs, List.range_succ, ← hnext]
  case retrans =>
    cases hretain : h.retain with
    | nil => simp [retransTimerKept, startTimer, hup]
    | cons k ks => simpa [retransTimerKept, hup, hretain] using hretrans

/-- A record sent again moves the cursor to the next, or ends the resend at V(S) (R164). -/
theorem sound_resend {h : HostLink} (hs : h.sound) {c : Seq} (hcursor : h.cursor = some c) :
    HostLink.sound { h with cursor := advanceCursor c h.vS } := by
  obtain ⟨hwindow, hwithin, hrest⟩ := hs
  obtain ⟨hlength, hnext, -⟩ := id hwindow
  obtain ⟨hup, hlt⟩ := hwithin c hcursor
  refine ⟨hwindow, fun d hd => ?_, hrest⟩
  simp only [advanceCursor] at hd
  split at hd
  · cases hd
  next hmore =>
    obtain rfl : c + 1 = d := by simpa using hd
    refine ⟨hup, ?_⟩
    rw [hnext] at hmore
    show (c + 1 - h.vA).toNat < h.retain.length
    bv_omega

/-! ## Timers, link states and the inbound buffer -/

theorem sound_restartSilence {h : HostLink} (hs : h.sound) (hup : h.state = .up) : h.restartSilence.sound := by
  unfold restartSilence
  split
  · exact hs
  next hruns =>
    obtain ⟨hwindow, hcursor, hretrans, -, hrest⟩ := hs
    exact ⟨hwindow, hcursor, hretrans, by simp [silenceTimerKept, startTimer, hup, hruns], hrest⟩

theorem sound_goDown {h : HostLink} (hs : h.sound) : h.goDown.sound := by
  obtain ⟨hwindow, -, -, -, hrest⟩ := hs
  exact ⟨hwindow, nofun, by simp [retransTimerKept, goDown], by simp [silenceTimerKept, goDown], hrest⟩

theorem sound_tick {h : HostLink} (hs : h.sound) : h.tick.sound := by
  obtain ⟨hwindow, hcursor, hretrans, hsilence, hrest⟩ := hs
  refine ⟨hwindow, hcursor, ?_, ?_, hrest⟩
  · simpa [retransTimerKept, HostLink.tick, tickTimer_eq] using hretrans
  · simpa [silenceTimerKept, HostLink.tick, tickTimer_eq] using hsilence

theorem sound_retransExpiry {h : HostLink} (hs : h.sound) (hup : h.state = .up) (hdue : h.retransTimer = some 0) :
    h.retransExpiry.sound := by
  obtain ⟨⟨-, hnext, -⟩, -, hretrans, -, -, -, -⟩ := id hs
  obtain ⟨hne, -⟩ := hretrans.mp (by simp [hdue])
  have hmore : h.vA ≠ h.vS := fun hsame => by
    have hpos := List.length_pos_iff.mpr hne
    obtain ⟨⟨hlength, -, -⟩, -⟩ := id hs
    bv_omega
  unfold retransExpiry
  dsimp only
  split
  · exact sound_resendFrom hs hup rfl hmore _
  · exact sound_goDown (h := { h with retryCount := h.retryCount + 1 }) hs

theorem sound_reset {h : HostLink} (hs : h.sound) (p : HelloParams) {room : Byte} (hroom : room.toNat ≤ 8) :
    (h.reset p room).sound := by
  obtain ⟨-, -, -, -, hstall, hinbound, -⟩ := hs
  refine ⟨by simp [windowKept, HostLink.reset], nofun, by simp [retransTimerKept, HostLink.reset], ?_, hstall, hinbound, hroom⟩
  by_cases hzero : p.silenceTimeout = 0 <;> simp [silenceTimerKept, HostLink.reset, hzero, startTimer]

theorem sound_deviceReset {h : HostLink} (hs : h.sound) : h.deviceReset.sound := by
  obtain ⟨-, -, -, -, -, -, hgrant⟩ := hs
  exact ⟨by simp [windowKept, HostLink.deviceReset], nofun, by simp [retransTimerKept, HostLink.deviceReset],
    by simp [silenceTimerKept, HostLink.deviceReset], nofun, by simp [HostLink.deviceReset], hgrant⟩

theorem sound_makeNak {h : HostLink} (hs : h.sound) : h.makeNak.sound := by
  unfold makeNak
  split <;> exact hs

theorem sound_judgeSequenced {h : HostLink} (hs : h.sound) (kind : SequencedKind) (r : HostRecord) :
    (h.judgeSequenced kind r).sound := by
  unfold judgeSequenced
  dsimp only
  split
  · exact sound_makeNak hs
  · split
    · split
      next hfree =>
        obtain ⟨hwindow, hcursor, hretrans, hsilence, hstall, -, hgrant⟩ := hs
        refine ⟨hwindow, hcursor, hretrans, hsilence, fun hstalled => ?_, by simpa [Config.inboundSlots] using hfree, hgrant⟩
        obtain ⟨hne, hhead⟩ := hstall hstalled
        exact ⟨by simp, by simpa only [List.head?_append_of_ne_nil _ hne] using hhead⟩
      next => exact sound_makeNak hs
    · split
      · exact hs
      · exact sound_makeNak hs

/-- With the head no longer stalling, the buffer may lose it. -/
theorem sound_endExecution {h : HostLink} (hs : h.sound) :
    HostLink.sound { h with inbound := h.inbound.tail, headStalled := false } := by
  obtain ⟨hwindow, hcursor, hretrans, hsilence, -, hinbound, hgrant⟩ := hs
  exact ⟨hwindow, hcursor, hretrans, hsilence, nofun, by simp only [List.length_tail]; omega, hgrant⟩

theorem sound_offerAgain {h : HostLink} (hs : h.sound) : HostLink.sound { h with headStalled := false } := by
  obtain ⟨hwindow, hcursor, hretrans, hsilence, -, hrest⟩ := hs
  exact ⟨hwindow, hcursor, hretrans, hsilence, nofun, hrest⟩

theorem sound_stallHead {h : HostLink} (hs : h.sound) {k : InboundRecord} (hhead : h.inbound.head? = some k)
    (hplain : k.kind = .command → isPlainReset k.payload = false) : HostLink.sound { h with headStalled := true } := by
  obtain ⟨hwindow, hcursor, hretrans, hsilence, -, hrest⟩ := hs
  refine ⟨hwindow, hcursor, hretrans, hsilence, fun _ => ⟨fun hnil => ?_, fun j hj => ?_⟩, hrest⟩
  · have hnone : h.inbound = [] := hnil
    simp [hnone] at hhead
  · obtain rfl : k = j := by
      have hj' : h.inbound.head? = some j := hj
      exact Option.some.inj (hhead.symm.trans hj')
    exact hplain

end HostLink

/-! ## What leaves the link alone -/

theorem LineEffect.lineSide {n : LineNo} {atTick : Bool} {s t : State} (h : LineEffect n atTick s t) : LineSide s t := by
  cases h with
  | none => exact .refl s
  | leadinEnd => exact lineSide_endLeadin ..
  | octetBoundary => exact lineSide_octetBoundary ..
  | frameEnd => exact lineSide_endFrame ..
  | gapEnd => exact lineSide_modLine ..
  | breakEnd => exact lineSide_endBreak ..
  | turnaroundEnd => exact lineSide_modLine ..
  | expiry => exact (lineSide_modLine ..).trans (lineSide_expireLine ..)
  | drainEnd => exact lineSide_flushHandling ..
  | clear => exact lineSide_modLine ..
  | carrier high => exact (lineSide_modLine ..).trans (lineSide_carrierEffect ..)
  | characterStart => exact lineSide_startCharacter ..
  | characterComplete => exact lineSide_completeCharacter ..
  | gap => exact lineSide_takeGap ..
  | breakDetected => exact lineSide_detectBreak ..
  | marking => exact lineSide_returnToMarking ..
  | patternMatch => exact lineSide_modLine ..
  | pair => exact lineSide_takePair ..
  | syncOctet => exact lineSide_takeSyncOctet ..

theorem link_releaseEntry (s : State) (e : EntryRef) : (releaseEntry s e).link = s.link := by
  cases e with
  | frame i => exact (lineSide_freeFrame i _).link
  | reject k => rfl

theorem link_releaseEntries (es : List EntryRef) (s : State) : (es.foldl releaseEntry s).link = s.link :=
  foldl_keeps (P := fun t => t.link = s.link) (fun t e ht => (link_releaseEntry t e).trans ht) es rfl

theorem link_releaseReceived (i : Nat) (s : State) : (releaseReceived i s).link = s.link := by
  unfold releaseReceived
  split
  · rfl
  · exact ((lineSide_freeFrame ..).trans (lineSide_modLine ..)).link

theorem link_releaseRecord (s : State) (k : Retained) : (releaseRecord s k).link = s.link := by
  unfold releaseRecord
  split
  · rfl
  · rfl
  · exact link_releaseEntries ..
  · rfl
  · split
    · exact link_releaseReceived ..
    · rfl

theorem link_releaseRecords (ks : List Retained) (s : State) : (ks.foldl releaseRecord s).link = s.link :=
  foldl_keeps (P := fun t => t.link = s.link) (fun t k ht => (link_releaseRecord t k).trans ht) ks rfl

theorem link_rewindRecord (s : State) (k : Retained) : (rewindRecord s k).link = s.link := by
  unfold rewindRecord
  split
  · rfl
  · rfl
  · exact link_markEntries ..
  · rfl
  · rfl

theorem link_rewindRecords (ks : List Retained) (s : State) : (ks.foldl rewindRecord s).link = s.link :=
  foldl_keeps (P := fun t => t.link = s.link) (fun t k ht => (link_rewindRecord t k).trans ht) ks rfl

theorem link_laterSegment (g : Segment) (s : State) : (laterSegment g s).link = s.link := by
  unfold laterSegment
  split
  · rfl
  · split
    · rfl
    · split
      · exact (lineSide_storeAndClose ..).link
      · split
        · split
          · exact (lineSide_setComplete ..).link
          · rfl
        · split
          · split
            · rfl
            · exact (lineSide_failFrame ..).link
          · exact (lineSide_storeAndClose ..).link
      · split
        · rfl
        · exact (lineSide_failFrame ..).link
      · split
        · exact ((lineSide_setComplete ..).trans (lineSide_enterDone ..)).link
        · rfl
      · rfl

theorem link_rejectFirst {g : Segment} {status : RejectStatus} {s t : State} (h : rejectFirst g status s = some t) :
    t.link = s.link := by
  simp only [rejectFirst, Option.map_eq_some_iff] at h
  obtain ⟨k, -, rfl⟩ := h
  rfl

/-- A command other than RESET_DEVICE leaves the link alone, but for the counters that QUERY_DEVICE clears. -/
theorem link_commandBody {c : CommandCode} (hc : c ≠ .resetDevice) (tag : Byte) (ps : List Byte) (s : State) :
    (commandBody c tag ps s).link = s.link ∨ (commandBody c tag ps s).link = (clearDeviceCounters s).link := by
  cases c
  case resetDevice => exact absurd rfl hc
  case identify => exact .inl rfl
  case setDevice =>
    left
    simp only [commandBody, setDeviceBody]
    split
    · split <;> rfl
    · rfl
  case queryDevice =>
    simp only [commandBody, queryDeviceBody]
    split
    · split
      · exact .inl rfl
      next clear _ =>
        cases clear
        · exact .inl rfl
        · exact .inr rfl
    · exact .inl rfl
  case openLine => exact .inl (lineSide_openLineBody ..).link
  case closeLine => exact .inl (lineSide_closeLineBody ..).link
  case queryLine => exact .inl (lineSide_queryLineBody ..).link
  case ackCondition => exact .inl (lineSide_ackConditionBody ..).link
  case sendBreak => exact .inl (lineSide_sendBreakBody ..).link
  case seekLine => exact .inl (lineSide_seekLineBody ..).link
  case cancelFrame => exact .inl (lineSide_cancelFrameBody ..).link
  case redirect => exact .inl (lineSide_redirectBody ..).link
  case setLine => exact .inl (lineSide_setLineBody ..).link

/-! ## The releases of an acknowledgement keep the link up -/

/-- The link stays in its state, and V(A) where it is. -/
def SameWindow (s t : State) : Prop := t.link.state = s.link.state ∧ t.link.vA = s.link.vA

theorem SameWindow.of_link {s t : State} (h : t.link = s.link) : SameWindow s t := by
  simp only [SameWindow, h, and_self]

theorem SameWindow.trans {s t u : State} (h : SameWindow s t) (k : SameWindow t u) : SameWindow s u :=
  ⟨k.1.trans h.1, k.2.trans h.2⟩

theorem sameWindow_endExecution (s : State) : SameWindow s (endExecution s) := ⟨rfl, rfl⟩

theorem sameWindow_commandBody {c : CommandCode} (hc : c ≠ .resetDevice) (tag : Byte) (ps : List Byte) (s : State) :
    SameWindow s (commandBody c tag ps s) := by
  rcases link_commandBody hc tag ps s with hlink | hlink
  · exact .of_link hlink
  · exact ⟨(congrArg HostLink.state hlink).trans rfl, (congrArg HostLink.vA hlink).trans rfl⟩

theorem sameWindow_runCommand {p : List Byte} (hplain : isPlainReset p = false) (s : State) : SameWindow s (runCommand p s) := by
  unfold runCommand
  split
  · unfold runUnknown
    split <;> exact ⟨rfl, rfl⟩
  next c hcode =>
    unfold runKnown
    split
    next code tag ps =>
      split
      next hlength =>
        refine (sameWindow_commandBody (fun hreset => ?_) tag ps s).trans (sameWindow_endExecution _)
        subst hreset
        simp only [isPlainReset, hcode, List.length_cons, hlength, CommandCode.paramLength] at hplain
        cases hplain
      next => exact ⟨rfl, rfl⟩
    next => exact ⟨rfl, rfl⟩

theorem sameWindow_rejudgeCommand {s : State} (hstall : s.link.stallKept) : SameWindow s (rejudgeCommand s) := by
  unfold rejudgeCommand
  split
  next p hhead =>
    unfold HostLink.stalledHead at hhead
    split at hhead
    next hstalled =>
      have hplain := (hstall hstalled).2 _ hhead rfl
      unfold takeCommand
      split
      · exact ⟨rfl, rfl⟩
      · exact sameWindow_runCommand hplain (offerAgain s)
    next => cases hhead
  next => exact ⟨rfl, rfl⟩

theorem sameWindow_runSegment (atTick : Bool) (p : List Byte) (s : State) : SameWindow s (runSegment atTick p s) := by
  unfold runSegment
  split
  · exact ⟨rfl, rfl⟩
  · split
    · split
      · exact (SameWindow.of_link ((lineSide_acceptFirst ..).trans (lineSide_settleLine ..)).link).trans
          (sameWindow_endExecution _)
      · split
        next ht => exact (SameWindow.of_link (link_rejectFirst ht)).trans (sameWindow_endExecution _)
        next => exact ⟨rfl, rfl⟩
    · exact (SameWindow.of_link ((lineSide_settleAt ..).link.trans (link_laterSegment ..))).trans (sameWindow_endExecution _)

theorem sameWindow_rejudgeSegment (atTick : Bool) (s : State) : SameWindow s (rejudgeSegment atTick s) := by
  unfold rejudgeSegment
  split
  · exact (show SameWindow s (offerAgain s) from ⟨rfl, rfl⟩).trans (sameWindow_runSegment ..)
  · exact ⟨rfl, rfl⟩

theorem sameWindow_afterReleases (acked : List Retained) (lines : List LineNo) {s : State} (hstall : s.link.stallKept) :
    SameWindow s (afterReleases acked lines s) := by
  unfold afterReleases
  have hcommand : SameWindow s (if acked.any Retained.isReply then rejudgeCommand s else s) := by
    split
    · exact sameWindow_rejudgeCommand hstall
    · exact ⟨rfl, rfl⟩
  refine foldl_keeps (P := SameWindow s) (fun t n ht => ht.trans (.of_link (lineSide_settleLine ..).link)) lines ?_
  split
  · exact hcommand.trans (sameWindow_rejudgeSegment ..)
  · exact hcommand

theorem takeAck_window {s : State} (hstall : s.link.stallKept) (a : Seq) (room : Byte) :
    (takeAck a room s).link.state = s.link.state ∧ (takeAck a room s).link.vA = a := by
  have hlink := link_releaseRecords (s.link.retain.take (a - s.link.vA).toNat) (s.modLink (fun h => h.acknowledge a room))
  have hstall' : (s.link.acknowledge a room).stallKept := by
    unfold HostLink.acknowledge
    split <;> exact hstall
  obtain ⟨hstate, hvA⟩ := sameWindow_afterReleases (s.link.retain.take (a - s.link.vA).toNat)
    ((s.link.retain.take (a - s.link.vA).toNat).filterMap (Retained.emptiesLine s))
    (s := (s.link.retain.take (a - s.link.vA).toNat).foldl releaseRecord (s.modLink (fun h => h.acknowledge a room)))
    (by rw [hlink]; exact hstall')
  rw [hlink] at hstate hvA
  exact ⟨hstate.trans (HostLink.acknowledge_state ..), hvA.trans (HostLink.acknowledge_vA ..)⟩

/-! ## The serializer -/

theorem sound_sendAckIfDue {s : State} (hs : s.link.sound) : (sendAckIfDue s).link.sound := by
  unfold sendAckIfDue
  split <;> exact hs

theorem sound_sendNewOrAck (atTick : Bool) {s : State} (hs : s.link.sound) (hup : s.link.state = .up)
    (hcursor : s.link.cursor = none) : (sendNewOrAck atTick s).link.sound := by
  unfold sendNewOrAck
  split
  next hasks =>
    split
    next hformed =>
      obtain ⟨-, hlink⟩ := formRecord_keeps hformed
      rw [← hlink] at hs hup hcursor hasks
      simp only [HostLink.mayAsk, Bool.and_eq_true, decide_eq_true_eq, Config.retainSlots] at hasks
      exact HostLink.sound_sendNew hs hup hcursor hasks.1 atTick _
    next => exact sound_sendAckIfDue hs
  next => exact sound_sendAckIfDue hs

theorem sound_serve (atTick : Bool) {s : State} (hs : s.link.sound) : (serve atTick s).link.sound := by
  unfold serve
  split
  · exact hs
  · split
    · exact hs
    · exact hs
    · split
      next => exact hs
      next hup =>
        unfold chooseUp
        split
        · exact hs
        · split
          next hcursor => exact sound_sendNewOrAck atTick hs hup hcursor
          next c hcursor =>
            split
            · exact HostLink.sound_resend hs hcursor
            · exact sound_sendAckIfDue hs

theorem room_of_helloParams {r : HostRecord} {p : HelloParams} (h : helloParams r = some p) : r.room.toNat ≤ 8 := by
  unfold helloParams at h
  split at h
  · split at h
    next hroom =>
      unfold rangeField at hroom
      split at hroom
      next hin => exact hin.2
      next => cases hroom
    next => cases h
  · cases h

/-! ## The law -/

theorem kept_linkSound : Kept (fun s => s.link.sound) where
  queue _ hs := hs
  power rate _ _ := by
    simp [HostLink.sound, HostLink.windowKept, HostLink.cursorKept, HostLink.retransTimerKept, HostLink.silenceTimerKept,
      HostLink.stallKept, State.powerOn, HostLink.powerOn]
  rst hs := hs
  levels _ _ _ _ hs := hs
  serve atTick hs := sound_serve atTick hs
  reception _ _ hs := hs
  tick _ hs := HostLink.sound_tick hs
  offer hs := HostLink.sound_offerAgain hs
  stall hhead hplain hs := HostLink.sound_stallHead hs hhead hplain
  finish hs := HostLink.sound_endExecution hs
  reply _ _ hs := hs
  body {s} c tag ps _ _ hs := by
    by_cases hreset : c = .resetDevice
    · subst hreset
      exact HostLink.sound_deviceReset hs
    · rcases link_commandBody hreset tag ps s with hlink | hlink
      · rw [hlink]
        exact hs
      · rw [hlink]
        exact hs
  stray hs := hs
  reject ht hs := by
    rw [link_rejectFirst ht]
    exact hs
  first atTick _ hs := by
    rw [((lineSide_acceptFirst ..).trans (lineSide_settleLine ..)).link]
    exact hs
  later atTick g hs := by
    rw [(lineSide_settleAt ..).link, link_laterSegment]
    exact hs
  settle n hs := by
    rw [(lineSide_settleLine ..).link]
    exact hs
  owing hs := hs
  heard hup hs := HostLink.sound_restartSilence hs hup
  missed hs := hs
  release room hup ha hs := by
    rw [link_releaseRecords]
    exact HostLink.sound_acknowledge hs hup ha room
  nak {s b a} room hup ha hs ht := by
    obtain ⟨hstate, hvA⟩ := takeAck_window hs.2.2.2.2.1 a room
    show HostLink.sound (if a = (takeAck a room s).link.vS then _ else _)
    split
    · exact ht
    next hmore =>
      exact HostLink.sound_resendFrom ht (hstate.trans hup) hvA hmore _
  judge kind r hs := HostLink.sound_judgeSequenced hs kind r
  linkReset {s r p} hp hs := by
    have hlink := link_rewindRecords s.link.retain s
    show HostLink.sound (HostLink.reset p r.room (s.link.retain.foldl rewindRecord s).link)
    rw [hlink]
    exact HostLink.sound_reset hs p (room_of_helloParams hp)
  retransmission hup hdue hs := HostLink.sound_retransExpiry hs hup hdue
  silence hs := HostLink.sound_goDown hs
  sendingEnd hs := hs
  line _ heffect hs := by
    rw [(heffect.lineSide.trans (lineSide_settleLine ..)).link]
    exact hs

/-- Settles O57: every piece of an event that touches the link keeps its laws, and every other piece leaves it alone. -/
theorem linkLawsKept : Obligations.LinkLawsKept := by
  unfold Obligations.LinkLawsKept
  intro s t hs hstep
  exact kept_linkSound.step hs hstep

end Sys2Proof.Machine

end

section
-- The proofs below are checked one after another: in parallel each waits for the others with a thread of its own.
set_option Elab.async false

/-! PROOFS. How far the pieces of an event reach: which of them leave every line's place and reports alone, and what the others do
to the one line they act on. -/

namespace Sys2Proof.Machine

/-! ## What a change of a line keeps -/

/-- The laws of a line that a change keeps. -/
structure Line.Keeps (l k : Line) : Prop where
  reports : l.reportsKept → k.reportsKept
  placed : l.placed → k.placed
  bounded : l.placed → l.bounded → k.bounded

/-- A change of a line that moves neither its states nor its pins nor its live group, and adds nothing to its queues. -/
structure Line.Quiet (l k : Line) : Prop where
  state : k.state = l.state := by rfl
  config : k.config = l.config := by rfl
  latched : k.group.latched = l.group.latched := by rfl
  snapshot : k.group.snapshot = l.group.snapshot := by rfl
  reports : l.reportsKept → k.reportsKept := by exact id
  carrier : k.carrier = l.carrier := by rfl
  clear : k.clear = l.clear := by rfl
  txState : k.tx.state = l.tx.state := by rfl
  txCurrent : k.tx.current = l.tx.current := by rfl
  pendingBreak : k.tx.pendingBreak = l.tx.pendingBreak := by rfl
  urgent : k.tx.urgent.Sublist l.tx.urgent := by exact .refl _
  normal : k.tx.normal.Sublist l.tx.normal := by exact .refl _
  rxState : k.rx.state = l.rx.state := by rfl
  rxCurrent : k.rx.current = l.rx.current := by rfl
  character : k.rx.character = l.rx.character := by rfl
  queue : k.rx.queue.Sublist l.rx.queue := by exact .refl _

theorem Line.Keeps.refl (l : Line) : l.Keeps l := ⟨id, id, fun _ => id⟩

theorem Line.Keeps.trans {l k j : Line} (h : l.Keeps k) (g : k.Keeps j) : l.Keeps j :=
  ⟨g.reports ∘ h.reports, g.placed ∘ h.placed, fun hl hb => g.bounded (h.placed hl) (h.bounded hl hb)⟩

namespace Line.Quiet

variable {l k : Line}

theorem refl (l : Line) : l.Quiet l := {}

theorem trans {j : Line} (h : l.Quiet k) (g : k.Quiet j) : l.Quiet j where
  state := g.state.trans h.state
  config := g.config.trans h.config
  latched := g.latched.trans h.latched
  snapshot := g.snapshot.trans h.snapshot
  reports := g.reports ∘ h.reports
  carrier := g.carrier.trans h.carrier
  clear := g.clear.trans h.clear
  txState := g.txState.trans h.txState
  txCurrent := g.txCurrent.trans h.txCurrent
  pendingBreak := g.pendingBreak.trans h.pendingBreak
  urgent := g.urgent.trans h.urgent
  normal := g.normal.trans h.normal
  rxState := g.rxState.trans h.rxState
  rxCurrent := g.rxCurrent.trans h.rxCurrent
  character := g.character.trans h.character
  queue := g.queue.trans h.queue

theorem isSync (h : l.Quiet k) : k.isSync = l.isSync := by simp only [Line.isSync, h.config]

theorem readsCharacters (h : l.Quiet k) : k.readsCharacters = l.readsCharacters := by
  simp only [Line.readsCharacters, inGap, h.isSync, h.rxState]

theorem live (h : l.Quiet k) : k.live = l.live := by simp only [Line.live, h.isSync, h.rxState, h.carrier, h.clear]

theorem frameCount_le (h : l.Quiet k) : k.frameCount ≤ l.frameCount := by
  simp only [Line.frameCount, h.txCurrent]
  have hurgent := h.urgent.length_le
  have hnormal := h.normal.length_le
  omega

theorem keeps (h : l.Quiet k) : l.Keeps k where
  reports := h.reports
  placed hl := by
    obtain ⟨htx, hcurrent, hrx, hassembly, hcharacter, hempty⟩ := hl
    refine ⟨by rw [h.txState, h.state]; exact htx, by rw [h.txCurrent, h.txState]; exact hcurrent,
      by rw [h.rxState, h.state]; exact hrx, by rw [h.rxCurrent, h.rxState]; exact hassembly,
      by rw [h.character, h.readsCharacters]; exact hcharacter, fun hclosed => ?_⟩
    obtain ⟨hurgent, hnormal, hqueue⟩ := hempty (h.state.symm.trans hclosed)
    exact ⟨List.sublist_nil.mp (hurgent ▸ h.urgent), List.sublist_nil.mp (hnormal ▸ h.normal), List.sublist_nil.mp (hqueue ▸ h.queue)⟩
  bounded _ hb := by
    rw [Line.bounded, h.config]
    exact ⟨h.frameCount_le.trans hb.1, h.queue.length_le.trans hb.2⟩

theorem freeGroupCurrent (h : l.Quiet k) (hl : l.freeGroupCurrent) : k.freeGroupCurrent := by
  rw [Line.freeGroupCurrent, h.state, h.latched, h.snapshot, h.live]
  exact hl

end Line.Quiet

/-! ## How far a piece of an event reaches -/

/-- A piece that leaves every line quiet and takes at most d more places of the reply queue. -/
structure Calm (d : Nat) (s t : State) : Prop where
  places : t.occupied ≤ s.occupied + d
  lines : ∀ m, (s.line m).Quiet (t.line m)

/-- A piece that acts on line n alone, keeps its laws, and takes at most d more places of the reply queue. -/
structure Acts (n : LineNo) (d : Nat) (s t : State) : Prop where
  places : t.occupied ≤ s.occupied + d
  others : ∀ m, m ≠ n → (s.line m).Quiet (t.line m)
  own : (s.line n).Keeps (t.line n)

/-- Where the lines reserve no more places and the reply queue is no longer, no more places are occupied. -/
theorem State.occupied_le {s t : State} (hreplies : t.replies.length ≤ s.replies.length)
    (hbreaks : ∀ m, (t.line m).tx.pendingBreak = (s.line m).tx.pendingBreak) : t.occupied ≤ s.occupied := by
  simp only [State.occupied, hbreaks]
  omega

namespace Calm

theorem refl (s : State) : Calm 0 s s := ⟨le_rfl, fun _ => .refl _⟩

theorem trans {d : Nat} {s t u : State} (h : Calm 0 s t) (g : Calm d t u) : Calm d s u :=
  ⟨g.places.trans (Nat.add_le_add_right h.places d), fun m => (h.lines m).trans (g.lines m)⟩

theorem acts {d : Nat} {s t : State} (h : Calm d s t) (n : LineNo) : Acts n d s t :=
  ⟨h.places, fun m _ => h.lines m, (h.lines n).keeps⟩

theorem of_lines {s t : State} (hlines : t.lines = s.lines) (hreplies : t.replies.length ≤ s.replies.length) : Calm 0 s t :=
  ⟨State.occupied_le hreplies fun m => by rw [State.line_of_lines_eq hlines],
    fun m => by rw [State.line_of_lines_eq hlines]; exact .refl _⟩

theorem of_quiet {s t : State} (hlines : ∀ m, (s.line m).Quiet (t.line m)) (hreplies : t.replies.length ≤ s.replies.length) :
    Calm 0 s t :=
  ⟨State.occupied_le hreplies fun m => (hlines m).pendingBreak, hlines⟩

theorem modLine (s : State) (n : LineNo) {f : Line → Line} (h : (s.line n).Quiet (f (s.line n))) : Calm 0 s (s.modLine n f) := by
  refine of_quiet (fun m => ?_) le_rfl
  rw [State.line_modLine]
  split
  next hm => rw [hm]; exact h
  next => exact .refl _

theorem joinReply (r : Reply) (s : State) : Calm 1 s (joinReply r s) where
  places := by
    simp only [State.occupied, joinReply_replies, State.line_joinReply, List.length_append, List.length_singleton]
    omega
  lines _ := .refl _

theorem foldl {β : Type} {f : State → β → State} (h : ∀ s b, Calm 0 s (f s b)) (bs : List β) (s : State) :
    Calm 0 s (bs.foldl f s) :=
  foldl_keeps (P := Calm 0 s) (fun t b ht => ht.trans (h t b)) bs (.refl s)

end Calm

namespace Acts

theorem trans {n : LineNo} {d : Nat} {s t u : State} (h : Acts n 0 s t) (g : Acts n d t u) : Acts n d s u :=
  ⟨g.places.trans (Nat.add_le_add_right h.places d), fun m hm => (h.others m hm).trans (g.others m hm), h.own.trans g.own⟩

theorem modLine (s : State) (n : LineNo) {f : Line → Line}
    (hbreak : (f (s.line n)).tx.pendingBreak = (s.line n).tx.pendingBreak) (h : (s.line n).Keeps (f (s.line n))) :
    Acts n 0 s (s.modLine n f) where
  places := by
    refine State.occupied_le (s := s) (t := s.modLine n f) le_rfl fun m => ?_
    rw [State.line_modLine]
    split
    next hm => rw [hm]; exact hbreak
    next => rfl
  others m hm := by rw [State.line_modLine_of_ne _ _ hm]; exact .refl _
  own := by rw [State.line_modLine_self]; exact h

end Acts

/-! ## The store, the Completion List and the tables -/

theorem calm_putFrame (i : Nat) (r : FrameRecord) (s : State) : Calm 0 s (s.putFrame i r) := .of_lines rfl le_rfl

theorem calm_modFrame (i : Nat) (f : FrameRecord → FrameRecord) (s : State) : Calm 0 s (s.modFrame i f) :=
  .of_lines (by simp) (by simp)

theorem calm_modLink (f : HostLink → HostLink) (s : State) : Calm 0 s (s.modLink f) := .of_lines rfl le_rfl

theorem calm_releaseChain (i : Nat) (s : State) : Calm 0 s (releaseChain i s) := by
  unfold releaseChain
  split
  · exact .refl s
  · exact .of_lines rfl le_rfl

theorem calm_freeFrame (i : Nat) (s : State) : Calm 0 s (freeFrame i s) :=
  (calm_releaseChain i s).trans (.of_lines rfl le_rfl)

theorem calm_trimFrame (i : Nat) (s : State) : Calm 0 s (trimFrame i s) := by
  unfold trimFrame
  split
  · exact .refl s
  · exact .of_lines rfl le_rfl

theorem calm_appendOctet {k : CellClaim} {i : Nat} {b : Byte} {s t : State} (h : appendOctet k i b s = some t) : Calm 0 s t := by
  refine .of_lines (lines_of_appendOctet h) ?_
  obtain ⟨r, -, ⟨c, -, -, rfl⟩ | ⟨c, u, -, hclaim, rfl⟩⟩ := appendOctet_eq_some h
  · exact le_rfl
  · obtain ⟨-, hu⟩ := claimCell_eq_some hclaim
    rw [hu]
    exact le_rfl

theorem calm_appendOctets (k : CellClaim) (i : Nat) (bs : List Byte) (s : State) : Calm 0 s (appendOctets k i bs s).1 := by
  induction bs generalizing s with
  | nil => exact .refl s
  | cons b bs ih =>
    simp only [appendOctets]
    split
    · exact .refl s
    next happend => exact (calm_appendOctet happend).trans (ih _)

theorem Line.quiet_countDone (how : DoneTally) (l : Line) : l.Quiet (l.countDone how) := by
  unfold Line.countDone
  split
  · cases how <;> exact {}
  · exact .refl l

theorem calm_enterDone (how : DoneTally) (i : Nat) (s : State) : Calm 0 s (enterDone how i s) := by
  unfold enterDone
  split
  · exact .refl s
  next r _ =>
    refine Calm.trans ?_ (Calm.modLine _ r.line (Line.quiet_countDone how _))
    exact .of_lines rfl le_rfl

theorem calm_enterDiscarding (i : Nat) (s : State) : Calm 0 s (enterDiscarding i s) := by
  unfold enterDiscarding
  split
  · exact .refl s
  · split
    · exact calm_enterDone ..
    · exact calm_putFrame ..

theorem calm_leaveQueue (i : Nat) (s : State) : Calm 0 s (leaveQueue i s) := by
  unfold leaveQueue
  split
  · exact .refl s
  · split
    · exact Calm.modLine _ _ { urgent := List.filter_sublist }
    · exact Calm.modLine _ _ { normal := List.filter_sublist }

/-- A frame leaves its queue with a changed record, its chain released. -/
theorem calm_withdrawn (i : Nat) (r : FrameRecord) (s : State) : Calm 0 s (releaseChain i (leaveQueue i (s.putFrame i r))) :=
  (calm_putFrame i r s).trans ((calm_leaveQueue i _).trans (calm_releaseChain i _))

theorem calm_failFrame (o : FrameOutcome) (i : Nat) (s : State) : Calm 0 s (failFrame o i s) := by
  have hwaiting (r : FrameRecord) : Calm 0 s (if r.complete then
      enterDone .completed i (releaseChain i (leaveQueue i (s.putFrame i (r.fixOutcome o))))
      else enterDiscarding i (releaseChain i (leaveQueue i (s.putFrame i (r.fixOutcome o))))) := by
    split
    · exact (calm_withdrawn ..).trans (calm_enterDone ..)
    · exact (calm_withdrawn ..).trans (calm_enterDiscarding ..)
  unfold failFrame
  split
  · exact .refl s
  next r _ =>
    split
    · exact hwaiting r
    · exact hwaiting r
    · exact calm_putFrame ..
    · exact .refl s

theorem calm_expireLine (n : LineNo) (s : State) : Calm 0 s (expireLine n s) := by
  unfold expireLine
  dsimp only
  split
  · exact .refl s
  · exact .foldl (fun t i => calm_failFrame .expired i t) _ s

theorem calm_flushQueued (i : Nat) (s : State) : Calm 0 s (flushQueued i s) := by
  unfold flushQueued
  split
  · exact .refl s
  · exact (calm_withdrawn ..).trans (calm_enterDone ..)

theorem calm_finishDiscarding (n : LineNo) (s : State) : Calm 0 s (finishDiscarding n s) :=
  .foldl (fun t i => calm_enterDone .flushed i t) _ s

theorem calm_flushHandling (n : LineNo) (s : State) : Calm 0 s (flushHandling n s) := by
  have hqueues : Calm 0 s (finishDiscarding n ((s.line n).queued.foldl (fun t i => flushQueued i t) s)) :=
    (Calm.foldl (fun t i => calm_flushQueued i t) _ s).trans (calm_finishDiscarding n _)
  unfold flushHandling
  refine Calm.trans ?_ (Calm.modLine _ n {})
  split
  · exact hqueues
  · exact hqueues.trans (calm_failFrame ..)

/-! ## Segments -/

theorem calm_storeData (i : Nat) (data : List Byte) (s : State) : Calm 0 s (storeData i data s).1 := by
  unfold storeData
  split
  · exact .refl s
  · split
    · exact .refl s
    · have hstored := calm_appendOctets .transmitData i data s
      split
      next heq => rwa [heq] at hstored
      next heq => rwa [heq] at hstored

theorem calm_setComplete (i : Nat) (s : State) : Calm 0 s (setComplete i s) := calm_modFrame ..

theorem calm_closeFrame (i : Nat) (s : State) : Calm 0 s (closeFrame i s) := by
  unfold closeFrame
  have hcomplete := calm_setComplete i s
  dsimp only
  split
  · exact hcomplete
  · split
    · split
      · exact hcomplete.trans (calm_putFrame ..)
      · exact hcomplete
    · exact hcomplete.trans (calm_failFrame ..)

theorem calm_storeAndClose (i : Nat) (data : List Byte) (last : Bool) (s : State) : Calm 0 s (storeAndClose i data last s) := by
  have hstored := calm_storeData i data s
  unfold storeAndClose
  split
  next heq =>
    rw [heq] at hstored
    split
    · exact hstored.trans (calm_closeFrame ..)
    · exact hstored
  next heq =>
    rw [heq] at hstored
    split
    · exact hstored.trans ((calm_setComplete ..).trans (calm_failFrame ..))
    · exact hstored.trans (calm_failFrame ..)

theorem calm_laterSegment (g : Segment) (s : State) : Calm 0 s (laterSegment g s) := by
  unfold laterSegment
  split
  · exact .of_lines rfl le_rfl
  · split
    · exact .of_lines rfl le_rfl
    · split
      · exact calm_storeAndClose ..
      · split
        · split
          · exact calm_setComplete ..
          · exact .refl s
        · split
          · split
            · exact .refl s
            · exact calm_failFrame ..
          · exact calm_storeAndClose ..
      · split
        · exact .refl s
        · exact calm_failFrame ..
      · split
        · exact (calm_setComplete ..).trans (calm_enterDone ..)
        · exact .refl s
      · exact .refl s

theorem calm_rejectFirst {g : Segment} {status : RejectStatus} {s t : State} (h : rejectFirst g status s = some t) : Calm 0 s t := by
  simp only [rejectFirst, Option.map_eq_some_iff] at h
  obtain ⟨k, -, rfl⟩ := h
  exact .of_lines rfl le_rfl

/-! ## Releases -/

theorem calm_discardQueued (n : LineNo) (s : State) (i : Nat) : Calm 0 s (discardQueued n s i) := by
  unfold discardQueued
  split
  · exact .refl s
  · exact (calm_freeFrame ..).trans (Calm.modLine _ _ { queue := List.filter_sublist })

theorem calm_releaseDiscard (n : LineNo) (s : State) : Calm 0 s (releaseDiscard n s) := by
  unfold releaseDiscard
  exact (Calm.foldl (calm_discardQueued n) _ s).trans (Calm.modLine _ n {})

theorem calm_releaseEntry (s : State) (e : EntryRef) : Calm 0 s (releaseEntry s e) := by
  cases e with
  | frame i =>
    refine Calm.trans ?_ (calm_freeFrame i _)
    exact .of_lines rfl le_rfl
  | reject k => exact .of_lines rfl le_rfl

theorem calm_releaseReceived (i : Nat) (s : State) : Calm 0 s (releaseReceived i s) := by
  unfold releaseReceived
  split
  · exact .refl s
  · exact (calm_freeFrame ..).trans (Calm.modLine _ _ { queue := List.filter_sublist })

theorem calm_releaseRecord (s : State) (k : Retained) : Calm 0 s (releaseRecord s k) := by
  unfold releaseRecord
  split
  · exact .of_lines rfl (List.length_filter_le ..)
  · exact .refl s
  · exact .foldl calm_releaseEntry _ s
  · exact .refl s
  · split
    · exact calm_releaseReceived ..
    · exact .refl s

/-! ## The serializer, the rewind and the tick -/

theorem calm_markEntry (mark : Bool) (s : State) (e : EntryRef) : Calm 0 s (markEntry mark s e) := by
  cases e with
  | frame i => exact calm_modFrame ..
  | reject k =>
    unfold markEntry
    dsimp only
    split
    · exact .refl s
    · exact .of_lines rfl le_rfl

theorem length_carryOldest {seq : Seq} {q r : List ReplyEntry} (h : carryOldest seq q = some r) : r.length = q.length := by
  induction q generalizing r with
  | nil => cases h
  | cons e rest ih =>
    unfold carryOldest at h
    split at h
    · cases h
      rfl
    · obtain ⟨q', hq', rfl⟩ := Option.map_eq_some_iff.mp h
      simp [ih hq']

theorem Line.quiet_conditionReported (l : Line) : l.Quiet { l with group := { l.group with reportPending := false } } where
  reports h := ⟨nofun, fun hclosed => by simp [h.2.1 hclosed, ConditionGroup.reset], h.2.2⟩

theorem Line.quiet_closedReported (l : Line) : l.Quiet { l with close := { l.close with reportPending := false } } where
  reports h := ⟨h.1, h.2.1, nofun⟩

theorem calm_formRecord {s t : State} {c : Content} (h : formRecord s = some (c, t)) : Calm 0 s t := by
  rcases formRecord_cases h with h | h | h | h | h
  · simp only [formReply, Option.map_eq_some_iff] at h
    obtain ⟨q, hq, h⟩ := h
    cases h
    exact .of_lines rfl (length_carryOldest hq).le
  · simp only [formCondition, Option.map_eq_some_iff] at h
    obtain ⟨n, _, h⟩ := h
    cases h
    exact Calm.modLine _ _ (Line.quiet_conditionReported _)
  · unfold formDone at h
    split at h
    · cases h
    · cases h
      exact .foldl (calm_markEntry true) _ s
  · simp only [formClosed, Option.map_eq_some_iff] at h
    obtain ⟨n, _, h⟩ := h
    cases h
    exact Calm.modLine _ _ (Line.quiet_closedReported _)
  · unfold formSegment at h
    split at h
    · cases h
    · split at h
      · cases h
      · simp only [Option.map_eq_some_iff] at h
        obtain ⟨r, _, h⟩ := h
        cases h
        exact .of_lines rfl le_rfl

theorem calm_beginSending (type : PartType) (seq : Seq) (payload : List Byte) (s : State) :
    Calm 0 s (beginSending type seq payload s) := calm_modLink ..

theorem calm_sendAckIfDue (s : State) : Calm 0 s (sendAckIfDue s) := by
  unfold sendAckIfDue
  split
  · exact calm_beginSending ..
  · exact .refl s

theorem calm_sendNewOrAck (atTick : Bool) (s : State) : Calm 0 s (sendNewOrAck atTick s) := by
  unfold sendNewOrAck
  split
  · split
    next hformed => exact (calm_formRecord hformed).trans ((calm_modLink ..).trans (calm_beginSending ..))
    next => exact calm_sendAckIfDue s
  · exact calm_sendAckIfDue s

theorem calm_serve (atTick : Bool) (s : State) : Calm 0 s (serve atTick s) := by
  have hlink (type : PartType) (seq : Seq) (payload : List Byte) (f : HostLink → HostLink) :
      Calm 0 s ((beginSending type seq payload s).modLink f) := (calm_beginSending ..).trans (calm_modLink ..)
  unfold serve
  split
  · exact .refl s
  · split
    · exact hlink ..
    · exact hlink ..
    · split
      · exact .refl s
      · unfold chooseUp
        split
        · exact hlink ..
        · split
          · exact calm_sendNewOrAck ..
          · split
            · exact hlink ..
            · exact calm_sendAckIfDue s

theorem Line.quiet_rewindCondition (l : Line) : l.Quiet l.rewindCondition := by
  unfold Line.rewindCondition
  split
  next hwanted =>
    obtain ⟨hlatched, -, hreports⟩ := hwanted
    exact { reports := fun h => ⟨fun _ => ⟨hlatched, hreports⟩, fun hclosed => by
      simp [h.2.1 hclosed, ConditionGroup.reset] at hlatched, h.2.2⟩ }
  next => exact .refl l

theorem Line.quiet_rewindClosed (l : Line) : l.Quiet l.rewindClosed := by
  unfold Line.rewindClosed
  split
  next hclosed => exact { reports := fun h => ⟨h.1, h.2.1, fun _ => hclosed⟩ }
  next => exact .refl l

theorem calm_rewindRecord (s : State) (k : Retained) : Calm 0 s (rewindRecord s k) := by
  unfold rewindRecord
  split
  · exact .of_lines rfl (by simp)
  · exact Calm.modLine _ _ (Line.quiet_rewindCondition _)
  · exact .foldl (calm_markEntry false) _ s
  · exact Calm.modLine _ _ (Line.quiet_rewindClosed _)
  · exact .refl s

theorem calm_linkReset (p : HelloParams) (room : Byte) (s : State) : Calm 0 s (linkReset p room s) := by
  unfold linkReset
  refine Calm.trans (Calm.foldl calm_rewindRecord s.link.retain s) (Calm.trans ?_ (calm_modLink ..))
  exact .of_lines rfl le_rfl

theorem line_countTick (s : State) (m : LineNo) : (countTick s).line m = (s.line m).tick := Vector.getElem_map ..

theorem calm_countTick (s : State) : Calm 0 s (countTick s) :=
  .of_quiet (fun m => by rw [line_countTick]; exact {}) le_rfl

end Sys2Proof.Machine

end

section
-- The proofs below are checked one after another: in parallel each waits for the others with a thread of its own.
set_option Elab.async false

/-! PROOFS. What the pieces of the line events do to their own line. -/

namespace Sys2Proof.Machine

/-! ## Changes of a line's receiver -/

theorem Line.readsCharacters_iff (l : Line) : l.readsCharacters = true ↔
    l.isSync = false ∧ (l.rx.state = .idle ∨ l.rx.state = .assembling ∨ l.rx.state = .discard) := by
  simp only [Line.readsCharacters, inGap, Bool.or_eq_true, Bool.and_eq_true, Bool.not_eq_true', decide_eq_true_eq]
  tauto

/-- A change of a line by which its receiver goes from a state in which it is on to another. -/
structure Line.Listens (l k : Line) : Prop where
  was : l.rx.state ≠ .off
  state : k.state = l.state := by rfl
  config : k.config = l.config := by rfl
  group : k.group = l.group := by rfl
  report : k.close.reportPending = l.close.reportPending := by rfl
  txState : k.tx.state = l.tx.state := by rfl
  txCurrent : k.tx.current = l.tx.current := by rfl
  urgent : k.tx.urgent = l.tx.urgent := by rfl
  normal : k.tx.normal = l.tx.normal := by rfl
  on : k.rx.state ≠ .off
  rxCurrent : (l.rx.current.isSome = true ↔ l.rx.state = .assembling) → (k.rx.current.isSome = true ↔ k.rx.state = .assembling)
  character : k.rx.character = .waiting ∨ k.readsCharacters = true ∨
    (k.rx.character = l.rx.character ∧ (l.isSync = true ∨ k.rx.state = .idle ∨ k.rx.state = .assembling ∨ k.rx.state = .discard))
  queue : l.rx.queue.length ≤ l.config.quota → k.rx.queue.length ≤ l.config.quota := by exact id

theorem Line.Listens.keeps {l k : Line} (h : l.Listens k) : l.Keeps k where
  reports hl := by
    rw [Line.reportsKept, h.group, h.config, h.state, h.report]
    exact hl
  placed hl := by
    obtain ⟨htx, hcurrent, hrx, hassembly, hcharacter, hempty⟩ := hl
    have hopened : l.state = .opened := not_not.mp fun hnot => h.was (hrx.mpr hnot)
    have hsync : k.isSync = l.isSync := by simp only [Line.isSync, h.config]
    refine ⟨by rw [h.txState, h.state]; exact htx, by rw [h.txCurrent, h.txState]; exact hcurrent,
      by rw [h.state]; exact iff_of_false h.on (fun hnot => hnot hopened), h.rxCurrent hassembly, ?_,
      fun hclosed => by rw [h.state, hopened] at hclosed; cases hclosed⟩
    rcases h.character with hwaits | hreads | ⟨hsame, hkind⟩
    · exact .inl hwaits
    · exact .inr hreads
    · rw [hsame, k.readsCharacters_iff, hsync]
      refine hcharacter.imp_right fun hreads => ?_
      rw [Line.readsCharacters_iff] at hreads
      exact ⟨hreads.1, hkind.resolve_left (by simp [hreads.1])⟩
  bounded _ hb := by
    rw [Line.bounded, Line.frameCount, h.config, h.urgent, h.normal, h.txCurrent]
    exact ⟨hb.1, h.queue hb.2⟩

/-- A change of a line by which its transmitter goes from a state in which it is on to another, and holds no more frames. -/
structure Line.Sends (l k : Line) : Prop where
  was : l.tx.state ≠ .off
  state : k.state = l.state := by rfl
  config : k.config = l.config := by rfl
  group : k.group = l.group := by rfl
  close : k.close = l.close := by rfl
  rx : k.rx = l.rx := by rfl
  on : k.tx.state ≠ .off
  txCurrent : (l.tx.current.isSome = true ↔ l.tx.state.holdsFrame) → (k.tx.current.isSome = true ↔ k.tx.state.holdsFrame)
  frames : (l.tx.current.isSome = true ↔ l.tx.state.holdsFrame) → k.frameCount ≤ l.frameCount

theorem Line.Sends.keeps {l k : Line} (h : l.Sends k) : l.Keeps k where
  reports hl := by
    rw [Line.reportsKept, h.group, h.config, h.state, h.close]
    exact hl
  placed hl := by
    obtain ⟨htx, hcurrent, hrx, hassembly, hcharacter, hempty⟩ := hl
    have hopen : l.state ≠ .closed := fun hclosed => h.was (htx.mpr hclosed)
    have hreads : k.readsCharacters = l.readsCharacters := by
      simp only [Line.readsCharacters, inGap, Line.isSync, h.config, h.rx]
    exact ⟨by rw [h.state]; exact iff_of_false h.on hopen, h.txCurrent hcurrent, by rw [h.rx, h.state]; exact hrx,
      by rw [h.rx]; exact hassembly, by rw [h.rx, hreads]; exact hcharacter, fun hclosed => absurd (h.state.symm.trans hclosed) hopen⟩
  bounded hl hb := by
    rw [Line.bounded, h.config, h.rx]
    exact ⟨(h.frames hl.2.1).trans hb.1, hb.2⟩

/-! ## The entries of the receiver -/

/-- The states that a receiver may enter from within a frame or from a state between frames (R74 to R89). -/
def Line.MayEnter (l : Line) (x : RxState) : Prop :=
  x ≠ .off ∧ x ≠ .assembling ∧ (x.abandons = true ∨ x = .idle ∨ x = .discard ∨ l.isSync = true)

/-- A change of a line by which its receiver, on before, enters a state between frames. -/
structure Line.Enters (l : Line) (x : RxState) (k : Line) : Prop where
  was : l.rx.state ≠ .off
  may : l.MayEnter x
  state : k.state = l.state := by rfl
  config : k.config = l.config := by rfl
  group : k.group = l.group := by rfl
  report : k.close.reportPending = l.close.reportPending := by rfl
  txState : k.tx.state = l.tx.state := by rfl
  txCurrent : k.tx.current = l.tx.current := by rfl
  urgent : k.tx.urgent = l.tx.urgent := by rfl
  normal : k.tx.normal = l.tx.normal := by rfl
  rxState : k.rx.state = x := by rfl
  rxCurrent : k.rx.current = none ∨ (k.rx.current = l.rx.current ∧ l.rx.state ≠ .assembling)
  character : k.rx.character = if x.abandons then .waiting else l.rx.character := by rfl
  queue : k.rx.queue = l.rx.queue := by rfl

theorem Line.Enters.keeps {l k : Line} {x : RxState} (h : l.Enters x k) : l.Keeps k := by
  obtain ⟨hoff, hassembling, hkind⟩ := h.may
  have hx := h.rxState
  refine Line.Listens.keeps
    { was := h.was, state := h.state, config := h.config, group := h.group, report := h.report, txState := h.txState
      txCurrent := h.txCurrent, urgent := h.urgent, normal := h.normal, on := by rwa [hx], rxCurrent := fun hl => ?current
      character := ?character, queue := by rw [h.queue]; exact id }
  case current =>
    rw [hx]
    rcases h.rxCurrent with hnone | ⟨hsame, hnot⟩
    · exact iff_of_false (by simp [hnone]) hassembling
    · rw [hsame]
      exact iff_of_false (fun hsome => hnot (hl.mp hsome)) hassembling
  case character =>
    have hphase := h.character
    by_cases habandons : x.abandons = true
    · left
      rw [hphase, if_pos habandons]
    · right; right
      rw [hphase, if_neg habandons, hx]
      exact ⟨rfl, (hkind.resolve_left habandons).elim (.inr ∘ .inl) (.elim · (.inr ∘ .inr ∘ .inr) .inl)⟩

theorem Line.leaveAssembling_tx (x : RxState) (l : Line) : (l.leaveAssembling x).tx =
    { l.tx with turnaroundTimer := (l.leaveAssembling x).tx.turnaroundTimer } := by
  unfold Line.leaveAssembling
  split <;> rfl

theorem Line.leaveAssembling_eq (x : RxState) (l : Line) : l.leaveAssembling x =
    { l with rx := (l.leaveAssembling x).rx, tx := (l.leaveAssembling x).tx } := by
  unfold Line.leaveAssembling
  split <;> rfl

theorem Line.keeps_leaveAssembling {l : Line} {x : RxState} (hwas : l.rx.state ≠ .off) (hx : l.MayEnter x) :
    l.Keeps (l.leaveAssembling x) :=
  Line.Enters.keeps (x := x)
    { was := hwas, may := hx
      state := by rw [Line.leaveAssembling_eq], config := by rw [Line.leaveAssembling_eq], group := by rw [Line.leaveAssembling_eq]
      report := by rw [Line.leaveAssembling_eq], txState := by rw [Line.leaveAssembling_tx]
      txCurrent := by rw [Line.leaveAssembling_tx], urgent := by rw [Line.leaveAssembling_tx]
      normal := by rw [Line.leaveAssembling_tx], rxState := by rw [Line.leaveAssembling_rx]; rfl
      rxCurrent := .inl (by rw [Line.leaveAssembling_rx]), character := by rw [Line.leaveAssembling_rx]; rfl
      queue := by rw [Line.leaveAssembling_rx]; rfl }

theorem Line.keeps_enter {l : Line} {x : RxState} (hwas : l.rx.state ≠ .off) (hnot : l.rx.state ≠ .assembling)
    (hx : l.MayEnter x) : l.Keeps { l with rx := l.rx.enter x } :=
  Line.Enters.keeps (x := x) { was := hwas, may := hx, rxCurrent := .inr ⟨rfl, hnot⟩ }

theorem Line.mayEnter_entryState (l : Line) : l.MayEnter l.entryState := by
  unfold Line.entryState
  split
  · exact ⟨nofun, nofun, .inl rfl⟩
  · split
    next hsync => exact ⟨nofun, nofun, .inr (.inr (.inr hsync))⟩
    next => exact ⟨nofun, nofun, .inr (.inr (.inl rfl))⟩

theorem Line.keeps_enterListening {l : Line} (hwas : l.rx.state ≠ .off) (hnot : l.rx.state ≠ .assembling) :
    l.Keeps l.enterListening := Line.keeps_enter hwas hnot l.mayEnter_entryState

theorem Line.keeps_mute (l : Line) : l.Keeps l.mute := by
  unfold Line.mute
  split
  · split
    · exact .refl l
    · exact .refl l
    next hoff hassembling =>
      exact Line.Enters.keeps (x := .muted)
        { was := hoff, may := ⟨nofun, nofun, .inl rfl⟩, rxCurrent := .inr ⟨rfl, hassembling⟩ }
  · exact .refl l

theorem Line.mute_tx (l : Line) : l.mute.tx = l.tx := by
  unfold Line.mute
  split
  · split <;> rfl
  · rfl

theorem Line.keeps_unmute (l : Line) : l.Keeps l.unmute := by
  unfold Line.unmute
  split
  next hmuted => exact Line.keeps_enterListening (by simp [hmuted]) (by simp [hmuted])
  next => exact .refl l

theorem Line.keeps_readTo {l : Line} (h : l.readsCharacters = true) (p : CharacterPhase) : l.Keeps (l.readTo p) := by
  refine ⟨id, fun hl => ?_, fun _ => id⟩
  obtain ⟨htx, hcurrent, hrx, hassembly, -, hempty⟩ := hl
  exact ⟨htx, hcurrent, hrx, hassembly, .inr h, hempty⟩

/-! ## Pieces of the receiver events -/

section Receiver

variable {n : LineNo} {s : State}

theorem calm_countRxError (n : LineNo) (s : State) : Calm 0 s (countRxError n s) := Calm.modLine _ _ {}

theorem calm_countRxLost (n : LineNo) (s : State) : Calm 0 s (countRxLost n s) := Calm.modLine _ _ {}

theorem calm_loseFrame (n : LineNo) (s : State) : Calm 0 s (loseFrame n s) := (calm_countRxLost n s).trans (Calm.modLine _ _ {})

theorem acts_discardAssembly {x : RxState} (hwas : (s.line n).rx.state ≠ .off) (hx : (s.line n).MayEnter x) :
    Acts n 0 s (discardAssembly n x s) := by
  have hbreak (l : Line) : (l.leaveAssembling x).tx.pendingBreak = l.tx.pendingBreak := by rw [Line.leaveAssembling_tx]
  unfold discardAssembly
  split
  · exact .modLine s n (hbreak _) (Line.keeps_leaveAssembling hwas hx)
  · refine ((calm_freeFrame _ s).acts n).trans (.modLine _ n (hbreak _) (Line.keeps_leaveAssembling ?_ ?_))
    · rwa [freeFrame_line]
    · rwa [freeFrame_line]

theorem acts_beginFrame (hwas : (s.line n).rx.state ≠ .off) (hnot : (s.line n).rx.state ≠ .assembling) (length : Nat)
    (header : List Byte) : Acts n 0 s (beginFrame n length header s) := by
  cases hclaim : claimRecord .rx s with
  | some i =>
    rw [beginFrame_of_record n length header hclaim]
    exact ((calm_putFrame ..).acts n).trans (.modLine _ n rfl (Line.Listens.keeps
      { was := hwas, on := nofun, rxCurrent := fun _ => ⟨fun _ => rfl, fun _ => rfl⟩
        character := by
          right; right
          exact ⟨rfl, .inr (.inr (.inl rfl))⟩ }))
  | none =>
    rw [beginFrame_of_no_record n length header hclaim]
    exact .modLine s n rfl (Line.Enters.keeps (x := .discard)
      { was := hwas, may := ⟨nofun, nofun, .inr (.inr (.inl rfl))⟩, rxCurrent := .inr ⟨rfl, hnot⟩ })

/-- A frame joins a receive queue that stays within its quota. -/
theorem Line.keeps_queued {l k : Line} (hwas : l.rx.state ≠ .off) (hstate : k.state = l.state) (hconfig : k.config = l.config)
    (hgroup : k.group = l.group) (hclose : k.close = l.close) (htx : k.tx = l.tx) (hrxState : k.rx.state = l.rx.state)
    (hrxCurrent : k.rx.current = l.rx.current) (hcharacter : k.rx.character = l.rx.character)
    (hqueue : l.rx.queue.length ≤ l.config.quota → k.rx.queue.length ≤ l.config.quota) : l.Keeps k where
  reports hl := by
    rw [Line.reportsKept, hgroup, hconfig, hstate, hclose]
    exact hl
  placed hl := by
    obtain ⟨htxState, hcurrent, hrx, hassembly, hphase, hempty⟩ := hl
    have hopened : l.state = .opened := not_not.mp fun hnot => hwas (hrx.mpr hnot)
    have hreads : k.readsCharacters = l.readsCharacters := by
      simp only [Line.readsCharacters, inGap, Line.isSync, hconfig, hrxState]
    exact ⟨by rw [htx, hstate]; exact htxState, by rw [htx]; exact hcurrent, by rw [hrxState, hstate]; exact hrx,
      by rw [hrxCurrent, hrxState]; exact hassembly, by rw [hcharacter, hreads]; exact hphase,
      fun hclosed => by rw [hstate, hopened] at hclosed; cases hclosed⟩
  bounded _ hb := by
    rw [Line.bounded, Line.frameCount, hconfig, htx]
    exact ⟨hb.1, hqueue hb.2⟩

theorem acts_placeFrame (hwas : (s.line n).rx.state ≠ .off) (i : Nat) : Acts n 0 s (placeFrame n i s) := by
  by_cases hroom : (s.line n).rx.queue.length < (s.line n).config.quota
  · rw [placeFrame_below_quota i hroom]
    refine ((calm_modFrame ..).acts n).trans (.modLine _ n rfl ?_)
    rw [State.line_modFrame]
    exact Line.keeps_queued hwas rfl rfl rfl rfl rfl rfl rfl rfl fun _ => by simpa using hroom
  · have hlost (t : State) : Calm 0 t (loseFrame n (freeFrame i (t.modLine n (fun l => { l with
        rx := { l.rx with nextNumber := (l.rx.nextNumber + 1) % 65536, pendingLoss := false } })))) :=
      (Calm.modLine t n {}).trans ((calm_freeFrame ..).trans (calm_loseFrame ..))
    cases htail : (s.line n).rx.queue.getLast? with
    | none =>
      simp only [placeFrame, if_neg hroom, htail]
      exact (hlost s).acts n
    | some j =>
      by_cases hfresh : ∃ q, s.frame j = some q ∧ q.deliveryBegun = false
      · obtain ⟨q, hq, hbegun⟩ := hfresh
        rw [placeFrame_replaces_tail i (Nat.not_lt.mp hroom) htail hq hbegun]
        refine ((calm_freeFrame ..).acts n).trans (((calm_modFrame ..).acts n).trans (.modLine _ n rfl ?_))
        rw [State.line_modFrame, freeFrame_line]
        refine Line.keeps_queued hwas rfl rfl rfl rfl rfl rfl rfl rfl fun hquota => ?_
        have hne : (s.line n).rx.queue ≠ [] := by
          intro hnil
          simp [hnil] at htail
        have hpos := List.length_pos_iff.mpr hne
        simp only [List.length_append, List.length_dropLast, List.length_singleton]
        omega
      · have hbegun : (s.frame j).elim true FrameRecord.deliveryBegun = true := by
          cases hq : s.frame j with
          | none => rfl
          | some q => exact Bool.of_not_eq_false fun hnot => hfresh ⟨q, hq, hnot⟩
        simp only [placeFrame, if_neg hroom, htail, if_pos hbegun]
        exact (hlost s).acts n

theorem line_trimFrame (i : Nat) (s : State) (n : LineNo) : (trimFrame i s).line n = s.line n := by
  unfold trimFrame
  split <;> rfl

theorem acts_disposeFrame (hwas : (s.line n).rx.state ≠ .off) (i : Nat) (o : FrameOutcome) (trim : Bool) :
    Acts n 0 s (disposeFrame n i o trim s) := by
  unfold disposeFrame
  split
  · dsimp only
    split
    · refine ((calm_modFrame ..).acts n).trans (((calm_trimFrame ..).acts n).trans (acts_placeFrame ?_ i))
      rwa [line_trimFrame, State.line_modFrame]
    · refine ((calm_modFrame ..).acts n).trans (acts_placeFrame ?_ i)
      rwa [State.line_modFrame]
  · exact ((calm_freeFrame ..).trans (calm_countRxError ..)).acts n

theorem acts_endGapFrame (hstate : (s.line n).rx.state = .assembling) : Acts n 0 s (endGapFrame n s) := by
  have hleave : Acts n 0 s (s.modLine n (Line.leaveAssembling .idle)) :=
    .modLine s n (by rw [Line.leaveAssembling_tx])
      (Line.keeps_leaveAssembling (x := .idle) (by simp [hstate]) ⟨nofun, nofun, .inr (.inl rfl)⟩)
  unfold endGapFrame
  dsimp only
  split
  · exact hleave
  · split
    · exact hleave.trans (((calm_freeFrame ..).trans (calm_countRxError ..)).acts n)
    · refine hleave.trans (acts_disposeFrame ?_ ..)
      rw [State.line_modLine_self, Line.leaveAssembling_rx]
      exact nofun

theorem acts_loseAssembly (hstate : (s.line n).rx.state = .assembling) : Acts n 0 s (discardAssembly n .discard s) :=
  acts_discardAssembly (by simp [hstate]) ⟨nofun, nofun, .inr (.inr (.inl rfl))⟩

theorem acts_assembleCharacter (hstate : (s.line n).rx.state = .assembling) (c : ReceivedCharacter) :
    Acts n 0 s (assembleCharacter n c s) := by
  have hcounted : Calm 0 s (s.modLine n (fun l => { l with rx := { l.rx with count := l.rx.count + 1 } })) := Calm.modLine s n {}
  have hassembling : ((s.modLine n (fun l => { l with rx := { l.rx with count := l.rx.count + 1 } })).line n).rx.state =
      .assembling := by rw [State.line_modLine_self]; exact hstate
  unfold assembleCharacter
  dsimp only
  split
  · exact hcounted.acts n
  · split
    · exact (hcounted.acts n).trans ((acts_loseAssembly hassembling).trans ((calm_countRxError ..).acts n))
    · split
      · exact (hcounted.acts n).trans ((acts_loseAssembly hassembling).trans ((calm_loseFrame ..).acts n))
      next happend => exact (hcounted.trans ((calm_appendOctet happend).trans (Calm.modLine _ n {}))).acts n

theorem acts_endSyncFrame (hstate : (s.line n).rx.state = .assembling) (hsync : (s.line n).isSync = true) (b : Byte) :
    Acts n 0 s (endSyncFrame n b s) := by
  have hleave : Acts n 0 s (s.modLine n (fun l =>
      let k := l.leaveAssembling .synced
      { k with rx := { k.rx with patternRequired := true, toCome := 0 } })) := by
    refine .modLine s n (by dsimp only; rw [Line.leaveAssembling_tx]) (Line.Keeps.trans
      (Line.keeps_leaveAssembling (x := .synced) (by simp [hstate]) ⟨nofun, nofun, .inr (.inr (.inr hsync))⟩)
      (Line.Quiet.keeps {}))
  unfold endSyncFrame
  dsimp only
  split
  · exact hleave
  · refine hleave.trans (acts_disposeFrame ?_ ..)
    rw [State.line_modLine_self]
    dsimp only
    rw [Line.leaveAssembling_rx]
    exact nofun

theorem acts_assembleSyncOctet (hstate : (s.line n).rx.state = .assembling) (hsync : (s.line n).isSync = true) (b : Byte) :
    Acts n 0 s (assembleSyncOctet n b s) := by
  have hcounted : Calm 0 s (s.modLine n (fun l =>
      { l with rx := { l.rx with count := l.rx.count + 1, toCome := l.rx.toCome - 1 } })) := Calm.modLine s n {}
  have hline := State.line_modLine_self s n (fun l =>
      { l with rx := { l.rx with count := l.rx.count + 1, toCome := l.rx.toCome - 1 } })
  unfold assembleSyncOctet
  dsimp only
  split
  · split
    · exact hcounted.acts n
    · split
      · exact (hcounted.acts n).trans ((acts_loseAssembly (by rw [hline]; exact hstate)).trans ((calm_loseFrame ..).acts n))
      next happend => exact (hcounted.trans ((calm_appendOctet happend).trans (Calm.modLine _ n {}))).acts n
  · split
    · exact (hcounted.trans (Calm.modLine _ n {})).acts n
    · exact (hcounted.acts n).trans (acts_endSyncFrame (by rw [hline]; exact hstate) (by rw [hline]; exact hsync) b)

theorem acts_consumeSyncOctet (hstate : (s.line n).rx.state = .discard) (hsync : (s.line n).isSync = true) :
    Acts n 0 s (consumeSyncOctet n s) := by
  unfold consumeSyncOctet
  refine .modLine s n (by split <;> rfl) ?_
  split
  · exact (Line.Enters.keeps (x := .synced)
      { was := by simp [hstate], may := ⟨nofun, nofun, .inr (.inr (.inr hsync))⟩, rxCurrent := .inr ⟨rfl, by simp [hstate]⟩ })
  · exact Line.Quiet.keeps {}

theorem acts_takePair (hstate : (s.line n).rx.state = .synced) (hsync : (s.line n).isSync = true) (high low : Byte) :
    Acts n 0 s (takePair n high low s) := by
  have hseek : Acts n 0 s (s.modLine n (fun k => { k with rx := k.rx.enter .seek })) :=
    .modLine s n rfl (Line.keeps_enter (x := .seek) (by simp [hstate]) (by simp [hstate]) ⟨nofun, nofun, .inr (.inr (.inr hsync))⟩)
  unfold takePair
  dsimp only
  split
  · exact (Calm.refl s).acts n
  · split
    · exact (Calm.modLine s n {}).acts n
    · split
      · exact hseek
      · split
        · exact acts_beginFrame (by simp [hstate]) (by simp [hstate]) ..
        · exact hseek.trans ((calm_countRxError ..).acts n)

theorem acts_gateReceiver (n : LineNo) (s : State) : Acts n 0 s (gateReceiver n s) := by
  have hgate (hwas : (s.line n).rx.state ≠ .off) (hnot : (s.line n).rx.state ≠ .assembling) :
      Acts n 0 s (s.modLine n (fun l => { l with rx := { l.rx.enter .gated with toCome := 0 } })) :=
    .modLine s n rfl (Line.Enters.keeps (x := .gated)
      { was := hwas, may := ⟨nofun, nofun, .inl rfl⟩, rxCurrent := .inr ⟨rfl, hnot⟩ })
  unfold gateReceiver
  cases hstate : (s.line n).rx.state
  case assembling => exact (acts_discardAssembly (x := .gated) (by simp [hstate]) ⟨nofun, nofun, .inl rfl⟩).trans ((calm_countRxError ..).acts n)
  case off | gated | muted => exact (Calm.refl s).acts n
  case idle | discard | breaking | seek | synced => exact hgate (by simp [hstate]) (by simp [hstate])

theorem acts_detectBreak (n : LineNo) (s : State) : Acts n 0 s (detectBreak n s) := by
  have hbreak (hwas : (s.line n).rx.state ≠ .off) (hnot : (s.line n).rx.state ≠ .assembling) :
      Acts n 0 s (s.modLine n (fun l => { l with rx := l.rx.enter .breaking })) :=
    .modLine s n rfl (Line.keeps_enter (x := .breaking) hwas hnot ⟨nofun, nofun, .inl rfl⟩)
  unfold detectBreak
  cases hstate : (s.line n).rx.state
  case assembling =>
    have hdiscard : Acts n 0 s (discardAssembly n .breaking s) := acts_discardAssembly (by simp [hstate]) ⟨nofun, nofun, .inl rfl⟩
    dsimp only
    split
    · exact hdiscard.trans ((calm_countRxError ..).acts n)
    · exact hdiscard
  case idle | discard => exact hbreak (by simp [hstate]) (by simp [hstate])
  case off | gated | muted | breaking | seek | synced => exact (Calm.refl s).acts n

theorem acts_seekReceiver (hsync : (s.line n).isSync = true) : Acts n 0 s (seekReceiver n s) := by
  have hmay : (s.line n).MayEnter .seek := ⟨nofun, nofun, .inr (.inr (.inr hsync))⟩
  have hseek (hwas : (s.line n).rx.state ≠ .off) (hnot : (s.line n).rx.state ≠ .assembling) :
      Acts n 0 s (s.modLine n (fun l => { l with rx := { l.rx.enter .seek with toCome := 0 } })) :=
    .modLine s n rfl (Line.Enters.keeps (x := .seek)
      { was := hwas, may := hmay, rxCurrent := .inr ⟨rfl, hnot⟩ })
  unfold seekReceiver
  cases hstate : (s.line n).rx.state
  case assembling => exact (acts_discardAssembly (by simp [hstate]) hmay).trans ((calm_countRxError ..).acts n)
  case synced | discard => exact hseek (by simp [hstate]) (by simp [hstate])
  case off | gated | muted | breaking | seek | idle => exact (Calm.refl s).acts n

theorem acts_carrierEffect (n : LineNo) (high : Bool) (s : State) : Acts n 0 s (carrierEffect n high s) := by
  unfold carrierEffect
  split
  · split
    · refine .modLine s n (by split <;> rfl) ?_
      split
      next hgated => exact Line.keeps_enterListening (by simp [hgated]) (by simp [hgated])
      next => exact .refl _
    · exact acts_gateReceiver n s
  · exact (Calm.refl s).acts n

/-! ## Characters -/

theorem reads_beginFrame (hgap : (s.line n).isSync = false) (length : Nat) (header : List Byte) :
    ((beginFrame n length header s).line n).readsCharacters = true := by
  rw [Line.readsCharacters_iff]
  cases hclaim : claimRecord .rx s with
  | some i =>
    rw [beginFrame_of_record n length header hclaim, State.line_modLine_self]
    exact ⟨hgap, .inr (.inl rfl)⟩
  | none =>
    rw [beginFrame_of_no_record n length header hclaim, State.line_modLine_self]
    exact ⟨hgap, .inr (.inr rfl)⟩

theorem acts_startCharacter (hdue : (s.line n).awaitsStart = true) : Acts n 0 s (startCharacter n s) := by
  obtain ⟨hreads, -⟩ := Bool.and_eq_true_iff.mp hdue
  obtain ⟨hgap, -⟩ := (s.line n).readsCharacters_iff.mp hreads
  unfold startCharacter
  split
  next hidle =>
    exact (acts_beginFrame (by simp [hidle]) (by simp [hidle]) ..).trans
      (.modLine _ n rfl (Line.keeps_readTo (reads_beginFrame hgap 0 []) _))
  next => exact .modLine s n rfl (Line.keeps_readTo hreads _)

theorem reads_discarded (hgap : (s.line n).isSync = false) : ((discardAssembly n .discard s).line n).readsCharacters = true := by
  rw [Line.readsCharacters_iff]
  unfold discardAssembly
  split <;> rw [State.line_modLine_self, Line.leaveAssembling_rx, Line.isSync, Line.leaveAssembling_config]
  · exact ⟨hgap, .inr (.inr rfl)⟩
  · rw [freeFrame_line]
    exact ⟨hgap, .inr (.inr rfl)⟩

theorem reads_assembleCharacter (hgap : (s.line n).isSync = false) (hstate : (s.line n).rx.state = .assembling)
    (c : ReceivedCharacter) : ((assembleCharacter n c s).line n).readsCharacters = true := by
  have hreads : (s.line n).readsCharacters = true := (Line.readsCharacters_iff _).mpr ⟨hgap, .inr (.inl hstate)⟩
  have hcounted : Calm 0 s (s.modLine n (fun l => { l with rx := { l.rx with count := l.rx.count + 1 } })) := Calm.modLine s n {}
  have hcountedGap := (hcounted.lines n).isSync.trans hgap
  unfold assembleCharacter
  dsimp only
  split
  · exact (hcounted.lines n).readsCharacters.trans hreads
  · split
    · exact ((calm_countRxError ..).lines n).readsCharacters.trans (reads_discarded hcountedGap)
    · split
      · exact ((calm_loseFrame ..).lines n).readsCharacters.trans (reads_discarded hcountedGap)
      next happend =>
        exact ((hcounted.trans ((calm_appendOctet happend).trans (Calm.modLine _ n {}))).lines n).readsCharacters.trans hreads

theorem acts_completeCharacter (hdue : (s.line n).inCharacter = true) (data : OctetBits) (parityBit stopBit : Bool) :
    Acts n 0 s (completeCharacter n data parityBit stopBit s) := by
  obtain ⟨hreads, -⟩ := Bool.and_eq_true_iff.mp hdue
  obtain ⟨hgap, -⟩ := (s.line n).readsCharacters_iff.mp hreads
  unfold completeCharacter
  dsimp only
  split
  next hstate =>
    exact (acts_assembleCharacter hstate _).trans (.modLine _ n rfl (Line.keeps_readTo (reads_assembleCharacter hgap hstate _) _))
  next => exact .modLine s n rfl (Line.keeps_readTo hreads _)

theorem acts_takeGap (hdue : inGap .assembling (s.line n) = true ∨ inGap .discard (s.line n) = true) :
    Acts n 0 s (takeGap n s) := by
  simp only [inGap, Bool.and_eq_true, Bool.not_eq_true', decide_eq_true_eq] at hdue
  unfold takeGap
  split
  next hstate => exact acts_endGapFrame hstate
  next hnot =>
    obtain ⟨-, hdiscard⟩ := hdue.resolve_left (fun h => hnot h.2)
    exact .modLine s n rfl (Line.Enters.keeps (x := .idle)
      { was := by simp [hdiscard], may := ⟨nofun, nofun, .inr (.inl rfl)⟩, rxCurrent := .inr ⟨rfl, by simp [hdiscard]⟩ })

theorem acts_returnToMarking (hdue : inGap .breaking (s.line n) = true ∨ (s.line n).mayBreak = true) :
    Acts n 0 s (returnToMarking n s) := by
  unfold returnToMarking
  split
  next hstate =>
    exact .modLine s n rfl (Line.Listens.keeps { was := by simp [hstate], on := nofun, character := .inl rfl
                                                 rxCurrent := fun hl => by rw [hstate] at hl; simpa using hl })
  next hnot =>
    have hreads : (s.line n).readsCharacters = true := by
      rcases hdue with hbreaking | hmay
      · simp only [inGap, Bool.and_eq_true, decide_eq_true_eq] at hbreaking
        exact absurd hbreaking.2 hnot
      · exact (Bool.and_eq_true_iff.mp hmay).1
    exact .modLine s n rfl (Line.keeps_readTo hreads _)

theorem acts_takeSyncOctet (hdue : inSync .assembling (s.line n) = true ∨ inSync .discard (s.line n) = true) (b : Byte) :
    Acts n 0 s (takeSyncOctet n b s) := by
  simp only [inSync, Bool.and_eq_true, decide_eq_true_eq] at hdue
  unfold takeSyncOctet
  split
  next hstate => exact acts_assembleSyncOctet hstate (hdue.elim And.left And.left) b
  next hnot =>
    obtain ⟨hsync, hdiscard⟩ := hdue.resolve_left (fun h => hnot h.2)
    exact acts_consumeSyncOctet hdiscard hsync

end Receiver

end Sys2Proof.Machine

end

section
-- The proofs below are checked one after another: in parallel each waits for the others with a thread of its own.
set_option Elab.async false

/-! PROOFS. What the transmitter's pieces, the judgments at the end of an event, and the commands do to the lines. -/

namespace Sys2Proof.Machine

/-! ## The transmitter -/

section Transmitter

variable {n : LineNo} {s : State}

theorem TxState.not_off_of_waits {x : TxState} (h : x = .idle ∨ x = .held) : x ≠ .off := by
  rcases h with rfl | rfl <;> nofun

theorem TxState.not_holdsFrame_of_waits {x : TxState} (h : x = .idle ∨ x = .held) : ¬ x.holdsFrame := by
  rcases h with rfl | rfl <;> simp [TxState.holdsFrame]

/-- From IDLE or HELD the transmitter goes to a state in which it holds no frame. -/
theorem Line.sends_of_waits {l k : Line} (hwaits : l.tx.state = .idle ∨ l.tx.state = .held) (hstate : k.state = l.state)
    (hconfig : k.config = l.config) (hgroup : k.group = l.group) (hclose : k.close = l.close) (hrx : k.rx = l.rx)
    (hcurrent : k.tx.current = l.tx.current) (hurgent : k.tx.urgent = l.tx.urgent) (hnormal : k.tx.normal = l.tx.normal)
    (hon : k.tx.state ≠ .off) (hholds : ¬ k.tx.state.holdsFrame) : l.Sends k where
  was := TxState.not_off_of_waits hwaits
  state := hstate
  config := hconfig
  group := hgroup
  close := hclose
  rx := hrx
  on := hon
  txCurrent hl := by
    rw [hcurrent]
    exact iff_of_false (fun hsome => TxState.not_holdsFrame_of_waits hwaits (hl.mp hsome)) hholds
  frames _ := by simp only [Line.frameCount, hurgent, hnormal, hcurrent]; exact le_rfl

theorem Line.keeps_txEnter {l : Line} {x : TxState} (hwaits : l.tx.state = .idle ∨ l.tx.state = .held) (hx : x = .idle ∨ x = .held) :
    l.Keeps (l.txEnter x) :=
  (Line.sends_of_waits (k := l.txEnter x) hwaits rfl rfl rfl rfl rfl rfl rfl rfl (TxState.not_off_of_waits hx)
    (TxState.not_holdsFrame_of_waits hx)).keeps

theorem Line.keeps_beginBreak {l : Line} (hwaits : l.tx.state = .idle ∨ l.tx.state = .held) (atTick : Bool) (d : Nat) :
    l.Keeps (beginBreak atTick d l) :=
  (Line.sends_of_waits (k := { l with tx := { l.tx with state := .breaking, breakTimer := startTimer atTick d } }) hwaits
    rfl rfl rfl rfl rfl rfl rfl rfl nofun (by simp [TxState.holdsFrame])).keeps.trans (Line.keeps_mute _)

/-- A take: the frame leaves its queue for the transmitter. -/
def Line.takes (i : Nat) (l : Line) : Line :=
  { l with tx := { l.tx with
    urgent := l.tx.urgent.filter (· ≠ i), normal := l.tx.normal.filter (· ≠ i), current := some i, readPos := 0
    crc := lineCrcInit, octet := none, gapAfterBreak := false
    state := if l.isSync then .leadin else .data } }

theorem takeFrame_eq (n : LineNo) (i : Nat) (s : State) : takeFrame n i s =
    (s.modFrame i (fun r => { r with state := .sending, sentCount := 0 })).modLine n (fun l => Line.mute (l.takes i)) := rfl

theorem length_filter_ne_lt {i : Nat} {queue : List Nat} (h : i ∈ queue) : (queue.filter (· ≠ i)).length < queue.length :=
  List.length_filter_lt_length_iff_exists.mpr ⟨i, h, by simp⟩

theorem Line.takes_state_holdsFrame (i : Nat) (l : Line) : (l.takes i).tx.state.holdsFrame := by
  unfold Line.takes
  dsimp only
  split
  · exact .inl rfl
  · exact .inr (.inl rfl)

theorem Line.keeps_takes {l : Line} {i : Nat} (hwaits : l.tx.state = .idle ∨ l.tx.state = .held)
    (hmem : i ∈ l.tx.urgent ∨ i ∈ l.tx.normal) : l.Keeps (l.takes i) := by
  have hholds := l.takes_state_holdsFrame i
  refine Line.Sends.keeps { was := TxState.not_off_of_waits hwaits, on := ?on, txCurrent := fun _ => iff_of_true rfl hholds, frames := fun hl => ?frames }
  case on =>
    intro hoff
    rw [hoff] at hholds
    simp [TxState.holdsFrame] at hholds
  case frames =>
    have hnone : l.tx.current = none := by
      rw [← Option.not_isSome_iff_eq_none]
      exact fun hsome => TxState.not_holdsFrame_of_waits hwaits (hl.mp hsome)
    have hurgent := List.length_filter_le (fun j => decide (j ≠ i)) l.tx.urgent
    have hnormal := List.length_filter_le (fun j => decide (j ≠ i)) l.tx.normal
    simp only [Line.frameCount, Line.takes, hnone, Option.isSome_some, Option.isSome_none, if_true, Bool.false_eq_true, if_false]
    rcases hmem with hmem | hmem
    · have hless := length_filter_ne_lt hmem
      omega
    · have hless := length_filter_ne_lt hmem
      omega

theorem IsCandidate.mem {l : Line} {i : Nat} (h : IsCandidate s l i) : i ∈ l.tx.urgent ∨ i ∈ l.tx.normal := by
  rcases h with ⟨r, hhead, -⟩ | ⟨-, r, hhead, -⟩
  · exact .inl (List.mem_of_mem_head? hhead)
  · exact .inr (List.mem_of_mem_head? hhead)

theorem acts_selectNext (atTick : Bool) (n : LineNo) (s : State) : Acts n 0 s (selectNext atTick n s) := by
  by_cases hwaits : (s.line n).tx.state = .idle ∨ (s.line n).tx.state = .held
  · have henter (x : TxState) (hx : x = .idle ∨ x = .held) : Acts n 0 s (s.modLine n (Line.txEnter x)) :=
      .modLine s n rfl (Line.keeps_txEnter hwaits hx)
    cases hbreak : (s.line n).tx.pendingBreak with
    | some b =>
      rw [selectNext_of_break atTick hwaits hbreak]
      split
      · exact henter _ (.inr rfl)
      · refine .modLine s n ?_ (Line.keeps_beginBreak hwaits atTick b.duration)
        rw [beginBreak, Line.mute_tx]
    | none =>
      rw [selectNext_of_no_break atTick hwaits hbreak]
      cases hcandidate : candidateFrame s (s.line n) with
      | none => exact henter _ (.inl rfl)
      | some i =>
        dsimp only [Option.elim_some]
        split
        · exact henter _ (.inr rfl)
        · rw [takeFrame_eq]
          refine ((calm_modFrame ..).acts n).trans (.modLine _ n (by rw [Line.mute_tx]; rfl) ?_)
          rw [State.line_modFrame]
          exact (Line.keeps_takes hwaits ((candidateFrame_eq_some_iff s _ i).mp hcandidate).mem).trans (Line.keeps_mute _)
  · rw [selectNext_of_other atTick (fun h => hwaits (.inl h)) (fun h => hwaits (.inr h))]
    exact (Calm.refl s).acts n

/-- The transmitter gives up its frame for GAP. -/
theorem Line.keeps_endsFrame {l : Line} (hon : l.tx.state ≠ .off) :
    l.Keeps { l with tx := { l.tx with current := none, octet := none, gapAfterBreak := false, state := .gap } } :=
  Line.Sends.keeps
    { was := hon, on := nofun, txCurrent := fun _ => by simp [TxState.holdsFrame]
      frames := fun _ => by
        simp only [Line.frameCount, Option.isSome_none, Bool.false_eq_true, if_false]
        omega }

theorem acts_endFrame (hon : (s.line n).tx.state ≠ .off) (i : Nat) : Acts n 0 s (endFrame n i s) := by
  have hreleased : Acts n 0 s (releaseChain i (s.modLine n (fun l =>
      { l with tx := { l.tx with current := none, octet := none, gapAfterBreak := false, state := .gap } }))) :=
    (Acts.modLine s n rfl (Line.keeps_endsFrame hon)).trans ((calm_releaseChain ..).acts n)
  unfold endFrame
  dsimp only
  split
  · exact hreleased
  next r _ =>
    split
    · exact hreleased.trans (((calm_putFrame ..).trans ((calm_enterDone ..).trans (Calm.modLine _ r.line {}))).acts n)
    next o _ =>
      refine hreleased.trans (Calm.acts (Calm.trans ?_ (Calm.modLine _ r.line {})) n)
      split
      · exact calm_enterDone ..
      · exact calm_enterDiscarding ..

/-- Within a frame the transmitter goes on to DATA or TRAILER. -/
theorem Line.keeps_goesOn {l k : Line} (hholds : l.tx.state.holdsFrame) (hstate : k.state = l.state) (hconfig : k.config = l.config)
    (hgroup : k.group = l.group) (hclose : k.close = l.close) (hrx : k.rx = l.rx) (hcurrent : k.tx.current = l.tx.current)
    (hurgent : k.tx.urgent = l.tx.urgent) (hnormal : k.tx.normal = l.tx.normal) (hk : k.tx.state.holdsFrame) : l.Keeps k := by
  have hon (x : TxState) (hx : x.holdsFrame) : x ≠ .off := by
    rintro rfl
    simp [TxState.holdsFrame] at hx
  exact Line.Sends.keeps
    { was := hon _ hholds, state := hstate, config := hconfig, group := hgroup, close := hclose, rx := hrx, on := hon _ hk
      txCurrent := fun hl => by rw [hcurrent]; exact iff_of_true (hl.mpr hholds) hk
      frames := fun _ => by simp only [Line.frameCount, hurgent, hnormal, hcurrent]; exact le_rfl }

theorem acts_endLeadin (hstate : (s.line n).tx.state = .leadin) (i : Nat) : Acts n 0 s (endLeadin n i s) := by
  unfold endLeadin
  split
  · exact (Calm.refl s).acts n
  · split
    · exact acts_endFrame (by simp [hstate]) i
    · exact .modLine s n rfl (Line.keeps_goesOn (.inl hstate) rfl rfl rfl rfl rfl rfl rfl rfl (.inr (.inl rfl)))

theorem acts_octetBoundary (hstate : (s.line n).tx.state = .data) (i : Nat) : Acts n 0 s (octetBoundary n i s) := by
  have hcounted : Calm 0 s (countOctet n i s) := .of_lines (lines_countOctet n i s) (by
    unfold countOctet
    split
    · exact (modFrame_replies ..).symm ▸ le_rfl
    · exact le_rfl)
  have hline : (countOctet n i s).line n = s.line n := State.line_of_lines_eq (lines_countOctet n i s) n
  have htrailer (crc : Crc) (t : State) (ht : t.line n = s.line n) : Acts n 0 t (t.modLine n (beginTrailer crc)) := by
    refine .modLine t n rfl ?_
    rw [ht]
    exact Line.keeps_goesOn (.inr (.inl hstate)) rfl rfl rfl rfl rfl rfl rfl rfl (.inr (.inr rfl))
  unfold octetBoundary
  change Acts n 0 s (match (countOctet n i s).frame i with
    | none => s
    | some r => _)
  split
  · exact (Calm.refl s).acts n
  · split
    · exact (hcounted.acts n).trans (htrailer _ _ hline)
    · split
      · exact (hcounted.trans (Calm.modLine _ n {})).acts n
      · split
        · exact (hcounted.acts n).trans (htrailer _ _ hline)
        · exact ((hcounted.trans (calm_putFrame ..)).acts n).trans (htrailer _ _ hline)

theorem Line.unmute_tx (l : Line) : l.unmute.tx = l.tx := by
  unfold Line.unmute
  split <;> rfl

theorem Line.keeps_endGap {l : Line} (hstate : l.tx.state = .gap) : l.Keeps (endGap l) := by
  have hidle (k : Line) (hk : k.tx = l.tx) : k.Keeps { k with tx := { k.tx with state := .idle, gapAfterBreak := false } } :=
    Line.Sends.keeps
      { was := by simp [hk, hstate], on := nofun, frames := fun _ => le_rfl
        txCurrent := fun hl => by
          rw [hk, hstate] at hl
          rw [hk]
          simpa [TxState.holdsFrame] using hl }
  unfold endGap
  dsimp only
  split
  · exact l.keeps_unmute.trans (hidle _ l.unmute_tx)
  · exact hidle l rfl

theorem acts_endGap (hstate : (s.line n).tx.state = .gap) : Acts n 0 s (s.modLine n endGap) := by
  refine .modLine s n ?_ (Line.keeps_endGap hstate)
  unfold endGap
  dsimp only
  split
  · rw [Line.unmute_tx]
  · rfl

theorem acts_endBreak (n : LineNo) (status : ReplyStatus) (s : State) : Acts n 0 s (endBreak n status s) := by
  refine ⟨(occupied_endBreak n status s).le, fun m hm => ?_, ?_⟩
  · unfold endBreak
    split
    · exact .refl _
    · rw [State.line_joinReply, State.line_modLine_of_ne _ _ hm]
      exact .refl _
  · unfold endBreak
    split
    · exact .refl _
    · rw [State.line_joinReply, State.line_modLine_self]
      split
      next hbreaking =>
        exact Line.Sends.keeps
          { was := by simp [hbreaking], on := nofun, frames := fun _ => le_rfl
            txCurrent := fun hl => by rw [hbreaking] at hl; simpa [TxState.holdsFrame] using hl }
      next => exact ⟨id, id, fun _ => id⟩

end Transmitter

/-! ## The judgments at the end of an event -/

theorem Line.keeps_enterClosed {l : Line} (hdue : l.closedDue = true) : l.Keeps l.enterClosed := by
  obtain ⟨hclosing, hurgent, hnormal, hcurrent, hwaits, hqueue⟩ := l.closedDue_iff.mp hdue
  refine ⟨fun _ => ⟨nofun, fun _ => rfl, fun _ => rfl⟩, fun hl => ?_, fun _ _ => ⟨?_, ?_⟩⟩
  · obtain ⟨-, -, hrx, hassembly, hcharacter, -⟩ := hl
    have hoff : l.rx.state = .off := hrx.mpr (by simp [hclosing])
    exact ⟨iff_of_true rfl rfl, by simp [Line.enterClosed, hcurrent, TxState.holdsFrame],
      by simp [Line.enterClosed, hoff], hassembly, hcharacter, fun _ => ⟨hurgent, hnormal, hqueue⟩⟩
  · simp [Line.enterClosed, Line.frameCount, hurgent, hnormal, hcurrent]
  · simp [Line.enterClosed, hqueue]

theorem Line.Quiet.closedDue {l k : Line} (h : l.Quiet k) (hdue : l.closedDue = true) : k.closedDue = true := by
  obtain ⟨hclosing, hurgent, hnormal, hcurrent, hwaits, hqueue⟩ := l.closedDue_iff.mp hdue
  exact k.closedDue_iff.mpr ⟨h.state.trans hclosing, List.sublist_nil.mp (hurgent ▸ h.urgent),
    List.sublist_nil.mp (hnormal ▸ h.normal), h.txCurrent.trans hcurrent, by rw [h.txState]; exact hwaits,
    List.sublist_nil.mp (hqueue ▸ h.queue)⟩

theorem acts_judgeClosed (n : LineNo) (s : State) : Acts n 0 s (judgeClosed n s) := by
  unfold judgeClosed
  split
  next hdue =>
    have hfinished := calm_finishDiscarding n s
    exact (hfinished.acts n).trans (.modLine _ n rfl (Line.keeps_enterClosed ((hfinished.lines n).closedDue hdue)))
  next => exact (Calm.refl s).acts n

theorem Line.keeps_judgeConditions (l : Line) : l.Keeps l.judgeConditions := by
  unfold Line.judgeConditions
  split
  next hdue =>
    obtain ⟨hopen, hfree, -⟩ := hdue
    refine ⟨fun hl => ⟨fun hpending => ⟨rfl, ?_⟩, fun hclosed => absurd hclosed hopen, hl.2.2⟩, id, fun _ => id⟩
    rcases Bool.or_eq_true_iff.mp hpending with hbefore | hreports
    · exact (hl.1 hbefore).2
    · exact hreports
  next => exact .refl l

theorem Line.freeGroupCurrent_judgeConditions (l : Line) : l.judgeConditions.freeGroupCurrent := by
  unfold Line.judgeConditions
  split
  next => exact nofun
  next hdue =>
    intro hopen hfree
    by_contra hnew
    exact hdue ⟨hopen, hfree, fun hsame => hnew hsame.symm⟩

theorem acts_judgeConditions (n : LineNo) (s : State) : Acts n 0 s (judgeConditions n s) := by
  refine .modLine s n ?_ (Line.keeps_judgeConditions _)
  unfold Line.judgeConditions
  split <;> rfl

theorem acts_settleLine (atTick : Bool) (n : LineNo) (s : State) : Acts n 0 s (settleLine atTick n s) :=
  (acts_selectNext atTick n s).trans ((acts_judgeClosed n _).trans (acts_judgeConditions n _))

theorem freeGroupCurrent_settleLine (atTick : Bool) (n : LineNo) (s : State) : ((settleLine atTick n s).line n).freeGroupCurrent := by
  rw [settleLine, judgeConditions, State.line_modLine_self]
  exact Line.freeGroupCurrent_judgeConditions _

/-! ## Whole pieces -/

/-- A whole piece of an event: it keeps the laws of every line, leaves every FREE group with nothing new, and takes at most d more
places of the reply queue. -/
structure Settled (d : Nat) (s t : State) : Prop where
  places : t.occupied ≤ s.occupied + d
  lines : ∀ m, (s.line m).Keeps (t.line m)
  current : (∀ m, (s.line m).freeGroupCurrent) → ∀ m, (t.line m).freeGroupCurrent

theorem Settled.trans {d : Nat} {s t u : State} (h : Settled 0 s t) (g : Settled d t u) : Settled d s u :=
  ⟨g.places.trans (Nat.add_le_add_right h.places d), fun m => (h.lines m).trans (g.lines m), g.current ∘ h.current⟩

theorem Settled.mono {d e : Nat} {s t : State} (h : Settled d s t) (hle : d ≤ e) : Settled e s t :=
  ⟨h.places.trans (Nat.add_le_add_left hle _), h.lines, h.current⟩

theorem Calm.settled {d : Nat} {s t : State} (h : Calm d s t) : Settled d s t :=
  ⟨h.places, fun m => (h.lines m).keeps, fun hcurrent m => (h.lines m).freeGroupCurrent (hcurrent m)⟩

theorem Acts.lines {n : LineNo} {d : Nat} {s t : State} (h : Acts n d s t) (m : LineNo) : (s.line m).Keeps (t.line m) := by
  by_cases hm : m = n
  · rw [hm]
    exact h.own
  · exact (h.others m hm).keeps

/-- What acts on a line and is followed by its judgments. -/
theorem Acts.settled {n : LineNo} {d : Nat} {s t : State} (h : Acts n d s t) (atTick : Bool) :
    Settled d s (settleLine atTick n t) := by
  have hsettle := acts_settleLine atTick n t
  refine ⟨hsettle.places.trans h.places, fun m => (h.lines m).trans (hsettle.lines m), fun hcurrent m => ?_⟩
  by_cases hm : m = n
  · rw [hm]
    exact freeGroupCurrent_settleLine atTick n t
  · exact (hsettle.others m hm).freeGroupCurrent ((h.others m hm).freeGroupCurrent (hcurrent m))

theorem settled_settleAt (atTick : Bool) (n : Option LineNo) (s : State) : Settled 0 s (settleAt atTick n s) := by
  cases n with
  | none => exact (Calm.refl s).settled
  | some n => exact ((Calm.refl s).acts n).settled atTick

/-- The events of a line, before their judgments. -/
theorem LineEffect.acts {n : LineNo} {atTick : Bool} {s t : State} (h : LineEffect n atTick s t) : Acts n 0 s t := by
  cases h with
  | none => exact (Calm.refl s).acts n
  | leadinEnd hstate => exact acts_endLeadin hstate _
  | octetBoundary hstate => exact acts_octetBoundary hstate _
  | frameEnd hstate => exact acts_endFrame (by simp [hstate]) _
  | gapEnd hstate => exact acts_endGap hstate
  | breakEnd => exact acts_endBreak ..
  | turnaroundEnd => exact (Calm.modLine s n {}).acts n
  | expiry => exact ((Calm.modLine s n {}).trans (calm_expireLine ..)).acts n
  | drainEnd => exact (calm_flushHandling ..).acts n
  | clear high => exact .modLine s n rfl ⟨id, id, fun _ => id⟩
  | carrier high => exact (Acts.modLine s n rfl ⟨id, id, fun _ => id⟩).trans (acts_carrierEffect ..)
  | characterStart hdue => exact acts_startCharacter hdue
  | characterComplete hdue => exact acts_completeCharacter hdue ..
  | gap hdue => exact acts_takeGap hdue
  | breakDetected => exact acts_detectBreak ..
  | marking hdue => exact acts_returnToMarking hdue
  | patternMatch hdue =>
    simp only [inSync, Bool.and_eq_true, decide_eq_true_eq] at hdue
    obtain ⟨hsync, hstate⟩ := hdue
    exact .modLine s n rfl (Line.Enters.keeps (x := .synced)
      { was := by simp [hstate], may := ⟨nofun, nofun, .inr (.inr (.inr hsync))⟩, rxCurrent := .inr ⟨rfl, by simp [hstate]⟩ })
  | pair hdue =>
    simp only [inSync, Bool.and_eq_true, decide_eq_true_eq] at hdue
    exact acts_takePair hdue.2 hdue.1 ..
  | syncOctet hdue => exact acts_takeSyncOctet hdue _

/-! ## Segments -/

/-- A first segment that is accepted has a line that is OPEN with room for a frame, a new tag and a free record (R27). -/
theorem firstCheck_eq_ok {g : Segment} {s : State} {n : LineNo} {i : Nat} (h : firstCheck g s = .ok (n, i)) :
    (s.line n).state = .opened ∧ Table.get s.tags g.tag = none ∧ (s.line n).frameCount < (s.line n).config.limit ∧
      claimRecord .tx s = some i := by
  cases hline : lineField g.line with
  | none => simp [firstCheck, hline] at h
  | some k =>
    rw [firstCheck_of_line hline] at h
    split_ifs at h with hopened htag hroom hlength
    cases hclaim : claimRecord .tx s with
    | none => rw [hclaim] at h; cases h
    | some j =>
      rw [hclaim] at h
      cases h
      exact ⟨not_not.mp hopened, Option.not_isSome_iff_eq_none.mp htag, Nat.not_le.mp hroom, rfl⟩

theorem Line.keeps_enqueue {l : Line} (hopened : l.state = .opened) (hroom : l.frameCount < l.config.limit) (urgent : Bool) (i : Nat) :
    l.Keeps (l.enqueue urgent i) := by
  have hclosed : l.state ≠ .closed := by simp [hopened]
  unfold Line.enqueue
  simp only [Line.frameCount] at hroom
  split
  · refine ⟨id, fun hl => ?_, fun _ hb => ⟨?_, hb.2⟩⟩
    · obtain ⟨htx, hcurrent, hrx, hassembly, hcharacter, -⟩ := hl
      exact ⟨htx, hcurrent, hrx, hassembly, hcharacter, fun hnot => absurd hnot hclosed⟩
    · simp only [Line.frameCount, List.length_append, List.length_singleton]
      omega
  · refine ⟨id, fun hl => ?_, fun _ hb => ⟨?_, hb.2⟩⟩
    · obtain ⟨htx, hcurrent, hrx, hassembly, hcharacter, -⟩ := hl
      exact ⟨htx, hcurrent, hrx, hassembly, hcharacter, fun hnot => absurd hnot hclosed⟩
    · simp only [Line.frameCount, List.length_append, List.length_singleton]
      omega

theorem acts_acceptFirst {g : Segment} {s : State} {n : LineNo} {i : Nat} (h : firstCheck g s = .ok (n, i)) :
    Acts n 0 s (acceptFirst g n i s) := by
  obtain ⟨hopened, -, hroom, -⟩ := firstCheck_eq_ok h
  have hrecord : Calm 0 s { s.putFrame i (FrameRecord.newTx n g) with tags := Table.put s.tags g.tag i } := .of_lines rfl le_rfl
  refine (hrecord.acts n).trans (Acts.trans (.modLine _ n ?_ (Line.keeps_enqueue hopened hroom g.urgent i)) ((calm_storeAndClose ..).acts n))
  unfold Line.enqueue
  split <;> rfl

/-! ## Commands -/

theorem Line.keeps_openWith {l : Line} {c : LineConfig} (hclosed : l.state = .closed) (hreport : l.close.reportPending = false) :
    l.Keeps (l.openWith c) := by
  rw [Line.openWith_eq]
  refine ⟨fun _ => ⟨nofun, nofun, fun hpending => ?_⟩, fun hl => ?_, fun hl _ => ?_⟩
  · rw [hreport] at hpending
    cases hpending
  · obtain ⟨htx, hcurrent, hrx, hassembly, hcharacter, -⟩ := hl
    have hoff : l.rx.state = .off := hrx.mpr (by simp [hclosed])
    have htxOff : l.tx.state = .off := htx.mpr hclosed
    have hwaiting : l.rx.character = .waiting :=
      hcharacter.resolve_right fun hreads => by
        obtain ⟨-, hstate⟩ := l.readsCharacters_iff.mp hreads
        simp [hoff] at hstate
    have hstate (b c : Prop) [Decidable b] [Decidable c] : (if b then RxState.gated else if c then .seek else .discard) ≠ .off ∧
        (if b then RxState.gated else if c then .seek else .discard) ≠ .assembling := by split_ifs <;> simp
    refine ⟨iff_of_false nofun nofun, ?_, iff_of_false (hstate _ _).1 (fun h => h rfl), iff_of_false ?_ (hstate _ _).2, ?_, nofun⟩
    · rw [htxOff] at hcurrent
      simpa [TxState.holdsFrame] using hcurrent
    · rw [hoff] at hassembly
      simpa using hassembly
    · left
      dsimp only
      rw [hwaiting, ite_self]
  · obtain ⟨htx, hcurrent, -, -, -, hempty⟩ := hl
    obtain ⟨hurgent, hnormal, hqueue⟩ := hempty hclosed
    have hnone : l.tx.current = none := by
      rw [htx.mpr hclosed] at hcurrent
      simpa [TxState.holdsFrame] using hcurrent
    simp [Line.bounded, Line.frameCount, hurgent, hnormal, hqueue, hnone]

theorem Line.keeps_setValues {l : Line} {v : LineValues} (hquota : l.rx.queue.length ≤ v.quota) (hlimit : l.frameCount ≤ v.limit) :
    l.Keeps (l.setValues v) := by
  refine ⟨fun hl => ⟨fun hpending => ?_, fun hclosed => ?_, hl.2.2⟩, id, fun _ _ => ⟨hlimit, hquota⟩⟩
  · obtain ⟨hbefore, hreports⟩ := Bool.and_eq_true_iff.mp hpending
    exact ⟨(hl.1 hbefore).1, hreports⟩
  · simp [Line.setValues, hl.2.1 hclosed, ConditionGroup.reset]

/-- The receiver of a line that begins to close is OFF (R116 steps 1 and 2). -/
theorem acts_beginClose {n : LineNo} {s : State} (hopened : (s.line n).state = .opened) (t : TxMode) (r : RxMode) :
    Acts n 0 s (closeReceiver n (s.modLine n (Line.beginClose t r))) := by
  have hkeeps (l k : Line) (hl : l.state = .opened) (hstate : k.state = .closing) (hconfig : k.config = l.config) (hgroup : k.group = l.group)
      (hreport : k.close.reportPending = l.close.reportPending) (htx : k.tx = { l.tx with turnaroundTimer := k.tx.turnaroundTimer })
      (hrx : k.rx.state = .off) (hcurrent : k.rx.current = none ∨ (k.rx.current = l.rx.current ∧ l.rx.state ≠ .assembling))
      (hcharacter : k.rx.character = .waiting) (hqueue : k.rx.queue = l.rx.queue) : l.Keeps k := by
    refine ⟨fun hlaws => ⟨by rw [hgroup, hconfig]; exact hlaws.1, fun hclosed => absurd (hstate.symm.trans hclosed) nofun, fun hpending => ?_⟩,
      fun hlaws => ?_, fun _ hb => ?_⟩
    · have hclosed := hlaws.2.2 (hreport ▸ hpending)
      rw [hl] at hclosed
      cases hclosed
    · obtain ⟨htxOff, htxCurrent, -, hassembly, -, -⟩ := hlaws
      refine ⟨?_, by rw [htx]; exact htxCurrent, iff_of_true hrx (by simp [hstate]), iff_of_false ?_ (by simp [hrx]), .inl hcharacter,
        fun hclosed => by rw [hstate] at hclosed; cases hclosed⟩
      · rw [htx, hstate]
        rw [hl] at htxOff
        exact iff_of_false (fun hoff => by simpa using htxOff.mp hoff) nofun
      · rcases hcurrent with hnone | ⟨hsame, hnot⟩
        · simp [hnone]
        · rw [hsame]
          exact fun hsome => hnot (hassembly.mp hsome)
    · rw [Line.bounded, Line.frameCount, hconfig, htx, hqueue]
      exact hb
  have hassembling : (s.line n).Keeps (((s.line n).beginClose t r).leaveAssembling .off) := by
    have hrx := ((s.line n).beginClose t r).leaveAssembling_rx .off
    have htx := ((s.line n).beginClose t r).leaveAssembling_tx .off
    exact hkeeps _ _ hopened (by rw [Line.leaveAssembling_eq]; rfl) (by rw [Line.leaveAssembling_eq]; rfl)
      (by rw [Line.leaveAssembling_eq]; rfl) (by rw [Line.leaveAssembling_eq]; rfl) htx (by rw [hrx]; rfl) (.inl (by rw [hrx]))
      (by rw [hrx]; rfl) (by rw [hrx]; rfl)
  unfold closeReceiver
  rw [State.line_modLine_self]
  split
  next =>
    refine Acts.trans ?_ ((calm_countRxError ..).acts n)
    unfold discardAssembly
    split
    · rw [State.modLine_modLine]
      exact .modLine s n (by rw [Line.leaveAssembling_tx]; rfl) hassembling
    next i _ =>
      rw [freeFrame_modLine, State.modLine_modLine]
      refine ((calm_freeFrame i s).acts n).trans (.modLine _ n (by rw [Line.leaveAssembling_tx]; rfl) ?_)
      rw [freeFrame_line]
      exact hassembling
  next hnot =>
    rw [State.modLine_modLine]
    exact .modLine s n rfl (hkeeps _ _ hopened rfl rfl rfl rfl rfl rfl (.inr ⟨rfl, hnot⟩) rfl rfl)

/-- The modes of a close (R116 steps 5 and 6). -/
theorem calm_applyTxMode (n : LineNo) (t : TxMode) (limit : Nat) (s : State) : Calm 0 s (applyTxMode n t limit s) := by
  unfold applyTxMode
  split
  · exact calm_flushHandling ..
  · split
    · exact .refl s
    · exact Calm.modLine _ _ {}

theorem calm_applyRxMode (n : LineNo) (r : RxMode) (s : State) : Calm 0 s (applyRxMode n r s) := by
  unfold applyRxMode
  split
  · exact .refl s
  · exact calm_releaseDiscard ..

theorem calm_refuse (c : CommandCode) (tag : Byte) (status : ReplyStatus) (s : State) : Calm 1 s (refuse c tag status s) :=
  .joinReply ..

theorem calm_replyOk (c : CommandCode) (tag : Byte) (results : List Byte) (s : State) : Calm 1 s (replyOk c tag results s) :=
  .joinReply ..

theorem settled_refuse (c : CommandCode) (tag : Byte) (status : ReplyStatus) (s : State) : Settled 1 s (refuse c tag status s) :=
  (calm_refuse ..).settled

theorem Settled.replyOk {s t : State} (h : Settled 0 s t) (c : CommandCode) (tag : Byte) (results : List Byte) :
    Settled 1 s (replyOk c tag results t) := h.trans (calm_replyOk ..).settled

theorem settled_closeOpen {n : LineNo} {s : State} (hopened : (s.line n).state = .opened) (tag : Byte) (t : TxMode) (r : RxMode)
    (limit : Nat) : Settled 1 s (closeOpen tag n t r limit s) := by
  have hended : Acts n 0 s (endBreak n .aborted (closeReceiver n (s.modLine n (Line.beginClose t r)))) :=
    (acts_beginClose hopened t r).trans (acts_endBreak ..)
  have hreplied := hended.trans ((calm_replyOk .closeLine tag [] _).acts n)
  have hmodes := (calm_applyTxMode n t limit (Machine.replyOk .closeLine tag []
    (endBreak n .aborted (closeReceiver n (s.modLine n (Line.beginClose t r)))))).trans (calm_applyRxMode n r _)
  exact Acts.settled ⟨hmodes.places.trans hreplied.places, fun m hm => (hreplied.others m hm).trans (hmodes.lines m),
    hreplied.own.trans (hmodes.lines n).keeps⟩ false

theorem settled_escalate (tag : Byte) (n : LineNo) (t : TxMode) (r : RxMode) (s : State) : Settled 1 s (escalate tag n t r s) := by
  have hflush (b : Bool) (u : State) : Calm 0 u (if b then flushHandling n u else u) := by
    split
    · exact calm_flushHandling ..
    · exact .refl u
  have hrelease (b : Bool) (u : State) : Calm 0 u (if b then releaseDiscard n u else u) := by
    split
    · exact calm_releaseDiscard ..
    · exact .refl u
  unfold escalate
  dsimp only
  split
  · exact Acts.settled (((hflush _ s).trans ((hrelease _ _).trans (calm_replyOk ..))).acts n) false
  · exact settled_refuse ..

/-! ## REDIRECT -/

theorem length_takenAt_le (urgent : Bool) (chosen : List Candidate) (queue : List Nat) :
    (takenAt (picks urgent chosen) queue).length ≤ (chosen.filter (fun c => c.urgent == urgent)).length := by
  have hnodup : ((queue.zipIdx.filter (fun x => picks urgent chosen x.2)).map Prod.snd).Nodup := by
    refine List.Nodup.sublist (List.filter_sublist.map Prod.snd) ?_
    rw [List.zipIdx_map_snd]
    exact List.nodup_range'
  have hsubset : (queue.zipIdx.filter (fun x => picks urgent chosen x.2)).map Prod.snd ⊆ chosenPlaces urgent chosen := by
    intro k hk
    obtain ⟨x, hx, rfl⟩ := List.mem_map.mp hk
    exact of_decide_eq_true (List.mem_filter.mp hx).2
  have hle := (hnodup.subperm hsubset).length_le
  simpa [takenAt, chosenPlaces] using hle

theorem length_chosen (chosen : List Candidate) :
    (chosen.filter (fun c => c.urgent == true)).length + (chosen.filter (fun c => c.urgent == false)).length = chosen.length := by
  have hperm := (List.filter_append_perm (fun c : Candidate => c.urgent == true) chosen).length_eq
  rw [List.length_append] at hperm
  rw [← hperm]
  congr 2
  exact List.filter_congr fun c _ => by cases c.urgent <;> rfl

theorem length_placeRun (p : Position) (run queue : List Nat) : (placeRun p run queue).length = queue.length + run.length := by
  cases p
  · exact (List.length_append ..).trans (Nat.add_comm ..)
  · exact List.length_append ..

theorem acts_moveChosen {src dst : LineNo} (hne : src ≠ dst) (hopened : (s.line dst).state = .opened) (p : Position) (chosen : List Candidate)
    (hroom : chosen.length ≤ redirectRoom s dst) : Acts dst 0 s (moveChosen src dst p chosen s) := by
  have hmoved := moved_moveChosen hne p chosen s
  have hquiet : (s.line src).Quiet ((moveChosen src dst p chosen s).line src) := by
    rw [hmoved.source]
    exact { urgent := taken_sublist (fun k => !picks true chosen k) _, normal := taken_sublist (fun k => !picks false chosen k) _ }
  refine ⟨State.occupied_le (congrArg List.length hmoved.replies).le fun m => ?_, fun m hm => ?_, ?_⟩
  · by_cases hsrc : m = src
    · rw [hsrc, hquiet.pendingBreak]
    · by_cases hdst : m = dst
      · rw [hdst, hmoved.destination]
      · rw [hmoved.lines m hsrc hdst]
  · by_cases hsrc : m = src
    · rw [hsrc]
      exact hquiet
    · rw [hmoved.lines m hsrc hm]
      exact .refl _
  · rw [hmoved.destination]
    refine ⟨id, fun hl => ?_, fun _ hb => ⟨?_, hb.2⟩⟩
    · obtain ⟨htx, hcurrent, hrx, hassembly, hcharacter, -⟩ := hl
      exact ⟨htx, hcurrent, hrx, hassembly, hcharacter, fun hclosed => by simp [hopened] at hclosed⟩
    · have hurgent := length_takenAt_le true chosen (s.line src).tx.urgent
      have hnormal := length_takenAt_le false chosen (s.line src).tx.normal
      have hall := length_chosen chosen
      have hlimit := hb.1
      simp only [redirectRoom, Line.frameCount] at hroom hlimit
      simp only [Line.frameCount, length_placeRun]
      omega

theorem settled_redirect {src dst : LineNo} (hne : src ≠ dst) (hopened : (s.line dst).state = .opened) (p : Position) (chosen : List Candidate)
    (hroom : chosen.length ≤ redirectRoom s dst) :
    Settled 0 s (settleLine false dst (settleLine false src (moveChosen src dst p chosen s))) := by
  have hmoved := acts_moveChosen hne hopened p chosen hroom
  have hsource := acts_settleLine false src (moveChosen src dst p chosen s)
  have hdestination := acts_settleLine false dst (settleLine false src (moveChosen src dst p chosen s))
  have hplaces : (settleLine false dst (settleLine false src (moveChosen src dst p chosen s))).occupied ≤ s.occupied := by
    have h1 := hmoved.places
    have h2 := hsource.places
    have h3 := hdestination.places
    omega
  refine ⟨hplaces,
    fun m => (hmoved.lines m).trans ((hsource.lines m).trans (hdestination.lines m)), fun hcurrent m => ?_⟩
  by_cases hdst : m = dst
  · rw [hdst]
    exact freeGroupCurrent_settleLine _ _ _
  · refine (hdestination.others m hdst).freeGroupCurrent ?_
    by_cases hsrc : m = src
    · rw [hsrc]
      exact freeGroupCurrent_settleLine _ _ _
    · exact (hsource.others m hsrc).freeGroupCurrent ((hmoved.others m hdst).freeGroupCurrent (hcurrent m))

end Sys2Proof.Machine

end

section
-- The proofs below are checked one after another: in parallel each waits for the others with a thread of its own.
set_option Elab.async false

/-! PROOFS. Every piece of an event keeps the laws of the lines and its bound on the reply places: the occupied count (9.2), the
reports (Chapter 5), and the places and bounds of the lines. -/

namespace Sys2Proof.Machine

/-! ## The commands -/

theorem settled_ackCondition (n : LineNo) (s : State) :
    Settled 0 s (judgeConditions n (s.modLine n (fun l => { l with group := l.group.acknowledge }))) := by
  have hfreed : (s.line n).Keeps { s.line n with group := (s.line n).group.acknowledge } :=
    ⟨fun hl => ⟨nofun, fun hclosed => by simp [hl.2.1 hclosed, ConditionGroup.acknowledge, ConditionGroup.reset], hl.2.2⟩, id,
      fun _ => id⟩
  have hjudged := acts_judgeConditions n (s.modLine n (fun l => { l with group := l.group.acknowledge }))
  have hacts : Acts n 0 s (judgeConditions n (s.modLine n (fun l => { l with group := l.group.acknowledge }))) :=
    (Acts.modLine s n rfl hfreed).trans hjudged
  refine ⟨hacts.places, hacts.lines, fun hcurrent m => ?_⟩
  by_cases hm : m = n
  · rw [hm, judgeConditions, State.line_modLine_self]
    exact Line.freeGroupCurrent_judgeConditions _
  · exact (hacts.others m hm).freeGroupCurrent (hcurrent m)

/-- A pending break reserves a place of the reply queue (R66, R173). -/
theorem acts_pendingBreak (n : LineNo) (b : PendingBreak) (s : State) :
    Acts n 1 s (s.modLine n (fun l => { l with tx := { l.tx with pendingBreak := some b } })) where
  places := by
    have hplaces := State.occupied_of_others (s := s) (t := s.modLine n (fun l => { l with tx := { l.tx with pendingBreak := some b } })) n
      fun m hm => by rw [State.line_modLine_of_ne _ _ hm]
    have hone (l : Line) : l.reservedPlaces ≤ 1 := by
      unfold Line.reservedPlaces
      split <;> omega
    have hnow := hone ((s.modLine n (fun l => { l with tx := { l.tx with pendingBreak := some b } })).line n)
    rw [modLine_replies] at hplaces
    omega
  others m hm := by rw [State.line_modLine_of_ne _ _ hm]; exact .refl _
  own := by rw [State.line_modLine_self]; exact ⟨id, id, fun _ => id⟩

/-- Every command but RESET_DEVICE takes at most one place of the reply queue and keeps the laws of the lines. -/
theorem settled_commandBody {c : CommandCode} (hc : c ≠ .resetDevice) (tag : Byte) (ps : List Byte) (s : State) :
    Settled 1 s (commandBody c tag ps s) := by
  have hsame (t : State) : Settled 1 t t := (Calm.refl t).settled.mono (Nat.zero_le 1)
  have hcalm {t : State} (h : Calm 0 s t) (c : CommandCode) (results : List Byte) : Settled 1 s (replyOk c tag results t) :=
    h.settled.replyOk c tag results
  cases c
  case resetDevice => exact absurd rfl hc
  case identify => exact (calm_replyOk ..).settled
  case setDevice =>
    simp only [commandBody, setDeviceBody]
    split
    · split
      · refine hcalm ?_ _ _
        exact .of_lines rfl le_rfl
      · exact settled_refuse ..
    · exact hsame s
  case queryDevice =>
    simp only [commandBody, queryDeviceBody]
    split
    · split
      · exact settled_refuse ..
      · refine hcalm ?_ _ _
        split
        · exact .of_lines rfl le_rfl
        · exact .refl s
    · exact hsame s
  case openLine =>
    simp only [commandBody, openLineBody]
    split
    · split
      · exact settled_refuse ..
      next n _ =>
        split
        · exact settled_refuse ..
        next c _ =>
          split
          · exact settled_refuse ..
          next hclosed =>
            obtain ⟨hstate, hreport⟩ := not_or.mp hclosed
            have hopens : Acts n 0 s (s.modLine n (Line.openWith c)) :=
              .modLine s n (by rw [Line.openWith_eq]) (Line.keeps_openWith (not_not.mp hstate) (Bool.eq_false_iff.mpr hreport))
            exact (hopens.settled false).replyOk ..
    · exact hsame s
  case closeLine =>
    simp only [commandBody, closeLineBody]
    split
    · split
      · exact settled_refuse ..
      · split
        · split
          next hopened => exact settled_closeOpen hopened ..
          next => exact settled_escalate ..
          next => exact settled_refuse ..
        · exact settled_refuse ..
    · exact hsame s
  case queryLine =>
    simp only [commandBody, queryLineBody]
    split
    · split
      · exact settled_refuse ..
      · split
        · exact settled_refuse ..
        · refine hcalm ?_ _ _
          split
          · exact Calm.modLine s _ {}
          · exact .refl s
    · exact hsame s
  case ackCondition =>
    simp only [commandBody, ackConditionBody]
    split
    · split
      · exact settled_refuse ..
      · refine Settled.replyOk ?_ ..
        split
        · exact settled_ackCondition ..
        · exact (Calm.refl s).settled
    · exact hsame s
  case sendBreak =>
    simp only [commandBody, sendBreakBody]
    split
    · split
      · exact settled_refuse ..
      · split
        · exact settled_refuse ..
        · split
          · exact settled_refuse ..
          · split
            · exact settled_refuse ..
            · exact (acts_pendingBreak ..).settled false
    · exact hsame s
  case seekLine =>
    simp only [commandBody, seekLineBody]
    split
    · split
      · exact settled_refuse ..
      · split
        · exact settled_refuse ..
        next hsync =>
          obtain ⟨-, hsync⟩ := not_or.mp hsync
          exact ((acts_seekReceiver (Bool.of_not_eq_false hsync)).settled false).replyOk ..
    · exact hsame s
  case cancelFrame =>
    simp only [commandBody, cancelFrameBody]
    split
    · split
      · exact settled_refuse ..
      · exact ((calm_failFrame ..).settled.trans (settled_settleAt ..)).replyOk ..
    · exact hsame s
  case redirect =>
    simp only [commandBody, redirectBody]
    split
    · split
      · split
        · split
          · exact settled_refuse ..
          next hne =>
            split
            · exact settled_refuse ..
            next hopened =>
              split
              · exact settled_refuse ..
              · exact (settled_redirect hne (not_not.mp hopened) _ _ (List.length_take_le ..)).replyOk ..
        · exact settled_refuse ..
      · exact settled_refuse ..
    · exact hsame s
  case setLine =>
    simp only [commandBody, setLineBody]
    split
    · split
      · exact settled_refuse ..
      next n _ =>
        split
        · exact settled_refuse ..
        next v _ =>
          split
          · exact settled_refuse ..
          next hfits =>
            obtain ⟨-, hquota, hlimit⟩ : _ ∧ _ ∧ _ := by simpa only [not_or] using hfits
            have hsets : Acts n 0 s (s.modLine n (Line.setValues v)) :=
              .modLine s n rfl (Line.keeps_setValues (Nat.not_lt.mp hquota) (Nat.not_lt.mp hlimit))
            exact (hsets.settled false).replyOk ..
    · exact hsame s

/-! ## The laws that whole pieces keep -/

theorem Line.reset_laws (carrier clear : Bool) : (Line.reset carrier clear).reportsKept ∧ (Line.reset carrier clear).placed ∧
    (Line.reset carrier clear).bounded ∧ (Line.reset carrier clear).freeGroupCurrent := by
  simp [Line.reportsKept, Line.placed, Line.bounded, Line.freeGroupCurrent, Line.reset, Transmitter.reset, Receiver.reset,
    ConditionGroup.reset, CloseState.reset, Line.frameCount, TxState.holdsFrame]

/-- A law of the lines and the reply places is kept by every event if whole pieces keep it, with one place taken only where one is
free, and if it holds while RST# is low and of reset lines. -/
theorem kept_of_settled {P : State → Prop}
    (hsettled : ∀ {s t : State}, Settled 0 s t → t.rstLow = s.rstLow → P s → P t)
    (hplace : ∀ {s t : State}, Settled 1 s t → t.rstLow = s.rstLow → s.occupied < 16 → P s → P t)
    (hlow : ∀ {s t : State}, t.rstLow = true → t.occupied ≤ s.occupied → (∀ m, (s.line m).Keeps (t.line m)) → P s → P t)
    (hreset : ∀ {t : State}, t.replies = [] → (∀ m, ∃ carrier clear, t.line m = Line.reset carrier clear) → P t) : Kept P where
  queue {s} rest hs := hsettled (show Calm 0 s { s with pending := rest } from .of_lines rfl le_rfl).settled rfl hs
  power rate s _ := hreset rfl fun m => ⟨_, _, Vector.getElem_map ..⟩
  rst {s} hs := hlow (s := s) rfl (State.occupied_le le_rfl fun _ => rfl) (fun _ => .refl _) hs
  levels {s} n f hrst hf hs := by
    have hpins (l : Line) : l.Keeps (f l) := by
      rw [hf l]
      exact ⟨id, id, fun _ => id⟩
    have hacts : Acts n 0 s (s.modLine n f) := .modLine s n (by rw [hf]) (hpins _)
    exact hlow hrst hacts.places hacts.lines hs
  serve atTick hs := hsettled (calm_serve ..).settled (upstreamSide_serve ..).rstLow hs
  reception _ _ hs := hsettled (calm_modLink ..).settled rfl hs
  tick _ hs := hsettled (calm_countTick _).settled rfl hs
  offer hs := hsettled (calm_modLink ..).settled rfl hs
  stall _ _ hs := hsettled (calm_modLink ..).settled rfl hs
  finish hs := hsettled (calm_modLink ..).settled rfl hs
  reply r hroom hs := hplace (Calm.joinReply ..).settled rfl hroom hs
  body {s} c tag ps _ hroom hs := by
    by_cases hc : c = .resetDevice
    · subst hc
      exact hreset rfl fun m => ⟨_, _, Vector.getElem_map ..⟩
    · exact hplace (settled_commandBody hc ..) (queueKept_commandBody ..).2 (hroom.resolve_right hc) hs
  stray {s} hs := hsettled (show Calm 0 s (countStray s) from .of_lines rfl le_rfl).settled rfl hs
  reject {s t g status} ht hs := by
    refine hsettled (calm_rejectFirst ht).settled ?_ hs
    simp only [rejectFirst, Option.map_eq_some_iff] at ht
    obtain ⟨k, -, rfl⟩ := ht
    rfl
  first atTick hcheck hs := hsettled ((acts_acceptFirst hcheck).settled atTick)
    ((lineSide_settleLine ..).rstLow.trans (lineSide_acceptFirst ..).rstLow) hs
  later atTick g hs := hsettled ((calm_laterSegment ..).settled.trans (settled_settleAt ..))
    ((lineSide_settleAt ..).rstLow.trans (queueKept_laterSegment ..).2) hs
  settle n hs := hsettled (((Calm.refl _).acts n).settled false) (lineSide_settleLine ..).rstLow hs
  owing hs := hsettled (calm_modLink ..).settled rfl hs
  heard _ hs := hsettled (calm_modLink ..).settled rfl hs
  missed hs := hsettled (calm_modLink ..).settled rfl hs
  release room _ _ hs := hsettled ((calm_modLink ..).trans (.foldl calm_releaseRecord _ _)).settled
    ((queueKept_foldl _ queueKept_releaseRecord ..).2.trans rfl) hs
  nak room _ _ _ ht := hsettled (calm_modLink ..).settled rfl ht
  judge _ _ hs := hsettled (calm_modLink ..).settled rfl hs
  linkReset _ hs := hsettled (calm_linkReset ..).settled (queueKept_linkReset ..).2 hs
  retransmission _ _ hs := hsettled (calm_modLink ..).settled rfl hs
  silence hs := hsettled (calm_modLink ..).settled rfl hs
  sendingEnd hs := hsettled (calm_modLink ..).settled rfl hs
  line _ heffect hs := hsettled (heffect.acts.settled _) ((lineSide_settleLine ..).rstLow.trans heffect.lineSide.rstLow) hs

/-- Settles O58: a reply joins only where a place is free or was reserved, and only SEND_BREAK, itself without a reply, reserves
one. -/
theorem occupiedCountBounded : Obligations.OccupiedCountBounded := by
  have hkept : Kept (fun s => s.occupied ≤ 16) := by
    refine kept_of_settled (fun h _ hs => h.places.trans hs) (fun h _ hroom _ => h.places.trans hroom) (fun _ hle _ hs => hle.trans hs)
      fun {t} hreplies hlines => ?_
    have hnone (m : LineNo) : (t.line m).tx.pendingBreak = none := by
      obtain ⟨carrier, clear, hline⟩ := hlines m
      rw [hline]
      rfl
    simp [State.occupied, hreplies, hnone]
  intro s t hs hstep
  exact hkept.step hs hstep

/-- Settles O60: no piece of an event disturbs a line's reports, and every piece that may change a line's live values ends with
the judgment of its conditions. -/
theorem reportLawsKept : Obligations.ReportLawsKept := by
  have hkept : Kept (fun s => (∀ n, (s.line n).reportsKept) ∧ (s.rstLow = false → ∀ n, (s.line n).freeGroupCurrent)) := by
    have hpiece {d : Nat} {s t : State} (h : Settled d s t) (hrst : t.rstLow = s.rstLow)
        (hs : (∀ n, (s.line n).reportsKept) ∧ (s.rstLow = false → ∀ n, (s.line n).freeGroupCurrent)) :
        (∀ n, (t.line n).reportsKept) ∧ (t.rstLow = false → ∀ n, (t.line n).freeGroupCurrent) :=
      ⟨fun n => (h.lines n).reports (hs.1 n), fun hrunning => h.current (hs.2 (hrst.symm.trans hrunning))⟩
    refine kept_of_settled hpiece (fun h hrst _ hs => hpiece h hrst hs)
      (fun hlow _ hlines hs => ⟨fun n => (hlines n).reports (hs.1 n), fun hrunning => by rw [hlow] at hrunning; cases hrunning⟩)
      fun _ hlines => ⟨fun n => ?_, fun _ n => ?_⟩
    · obtain ⟨carrier, clear, hline⟩ := hlines n
      rw [hline]
      exact (Line.reset_laws carrier clear).1
    · obtain ⟨carrier, clear, hline⟩ := hlines n
      rw [hline]
      exact (Line.reset_laws carrier clear).2.2.2
  intro s t hreports hcurrent hstep
  exact hkept.step (P := fun s => (∀ n, (s.line n).reportsKept) ∧ (s.rstLow = false → ∀ n, (s.line n).freeGroupCurrent))
    ⟨hreports, hcurrent⟩ hstep

/-- Every event keeps each line's states in agreement. -/
theorem kept_placed : Kept (fun s => ∀ n, (s.line n).placed) := by
  refine kept_of_settled (fun h _ hs n => (h.lines n).placed (hs n)) (fun h _ _ hs n => (h.lines n).placed (hs n))
    (fun _ _ hlines hs n => (hlines n).placed (hs n)) fun _ hlines n => ?_
  obtain ⟨carrier, clear, hline⟩ := hlines n
  rw [hline]
  exact (Line.reset_laws carrier clear).2.1

/-- Every event keeps each line's frames within its limits as well. -/
theorem kept_placed_bounded : Kept (fun s => ∀ n, (s.line n).placed ∧ (s.line n).bounded) := by
  have hpiece {l k : Line} (h : l.Keeps k) (hl : l.placed ∧ l.bounded) : k.placed ∧ k.bounded :=
    ⟨h.placed hl.1, h.bounded hl.1 hl.2⟩
  refine kept_of_settled (fun h _ hs n => hpiece (h.lines n) (hs n)) (fun h _ _ hs n => hpiece (h.lines n) (hs n))
    (fun _ _ hlines hs n => hpiece (hlines n) (hs n)) fun _ hlines n => ?_
  obtain ⟨carrier, clear, hline⟩ := hlines n
  rw [hline]
  exact ⟨(Line.reset_laws carrier clear).2.1, (Line.reset_laws carrier clear).2.2.1⟩

end Sys2Proof.Machine

end

section
-- The proofs below are checked one after another: in parallel each waits for the others with a thread of its own.
set_option Elab.async false

/-! PROOFS. The custody of the frame records (1.5, 1.6) as a relation between a record's state and the one list in which it stands,
and what happens to it when one record changes its place. -/

namespace Sys2Proof.Machine

/-! ## Where a record stands -/

/-- The lists of a line in which frame records stand. -/
inductive Slot where
  | urgent | normal | transmitter | receiver | received

/-- The records that stand in a list of a line. -/
def Line.standing (l : Line) : Slot → List Nat
  | .urgent => l.tx.urgent
  | .normal => l.tx.normal
  | .transmitter => l.tx.current.toList
  | .receiver => l.rx.current.toList
  | .received => l.rx.queue

/-- The list of its line in which a record of this priority and state stands; a record in DISCARDING or DONE stands in none. -/
def FrameState.slot (p : Priority) : FrameState → Option Slot
  | .filling | .ready => some (match p with | .urgent => .urgent | .normal => .normal)
  | .sending => some .transmitter
  | .assembling => some .receiver
  | .queued | .delivering | .sent => some .received
  | .discarding | .done => none

/-- The list of its line in which a record stands. -/
def FrameRecord.slot (r : FrameRecord) : Option Slot := r.state.slot r.priority

/-- The list in which the record of this index stands, if there is one. -/
def State.slotOf (s : State) (i : Nat) : Option Slot := (s.frame i).bind FrameRecord.slot

/-- The record of this index is in DONE. -/
def State.isDone (s : State) (i : Nat) : Prop := ∃ r, s.frame i = some r ∧ r.state = .done

/-- A TX record whose tag the Tag Map holds (R21). -/
def FrameRecord.live (r : FrameRecord) : Prop := r.state.ofTx ∧ r.state ≠ .done

/-- A record is in a state of its kind, without cells in DISCARDING and DONE (R18 to R20). -/
def FrameRecord.Fits (r : FrameRecord) : Prop :=
  (r.kind = .tx ↔ r.state.ofTx) ∧ (r.state = .discarding ∨ r.state = .done → r.chain = [])

/-- The custody of the frame records, list by list. -/
structure State.Custody (s : State) : Prop where
  fits : ∀ i r, s.frame i = some r → r.Fits
  nodup : ∀ n x, ((s.line n).standing x).Nodup
  standing : ∀ n x i, i ∈ (s.line n).standing x ↔ ∃ r, s.frame i = some r ∧ r.line = n ∧ r.slot = some x
  tags : ∀ tag i, Table.get s.tags tag = some i ↔ ∃ r, s.frame i = some r ∧ r.live ∧ r.tag = tag
  entries : s.completion.Nodup
  done : ∀ i, .frame i ∈ s.completion ↔ s.isDone i
  slots : ∀ k, .reject k ∈ s.completion ↔ (Table.get s.rejects k).isSome = true
  tagTable : Table.wf s.tags

theorem slot_queued_iff (r : FrameRecord) (n : LineNo) : ((r.queuedFor n .urgent = true ↔ r.line = n ∧ r.slot = some .urgent) ∧
    (r.queuedFor n .normal = true ↔ r.line = n ∧ r.slot = some .normal)) := by
  cases hstate : r.state <;> cases hpriority : r.priority <;>
    simp [FrameRecord.queuedFor, FrameRecord.slot, FrameState.slot, hstate, hpriority]

theorem slot_transmitter_iff (r : FrameRecord) : r.slot = some .transmitter ↔ r.state = .sending := by
  cases hstate : r.state <;> cases hpriority : r.priority <;> simp [FrameRecord.slot, FrameState.slot, hstate, hpriority]

theorem slot_receiver_iff (r : FrameRecord) : r.slot = some .receiver ↔ r.state = .assembling := by
  cases hstate : r.state <;> cases hpriority : r.priority <;> simp [FrameRecord.slot, FrameState.slot, hstate, hpriority]

theorem slot_received_iff (r : FrameRecord) :
    r.slot = some .received ↔ r.state = .queued ∨ r.state = .delivering ∨ r.state = .sent := by
  cases hstate : r.state <;> cases hpriority : r.priority <;> simp [FrameRecord.slot, FrameState.slot, hstate, hpriority]

/-- The five predicates of R18, R19, R37, R51, R72 and R94 are those of the five lists. -/
theorem lineCustody_iff (s : State) (n : LineNo) : s.lineCustody n ↔
    ∀ x (P : FrameRecord → Bool), (∀ r, P r = true ↔ r.line = n ∧ r.slot = some x) → s.standsIn ((s.line n).standing x) P := by
  have hcongr (places : List Nat) (P Q : FrameRecord → Bool) (h : ∀ r, P r = Q r) : s.standsIn places P → s.standsIn places Q := by
    rw [show P = Q from funext h]
    exact id
  constructor
  · rintro ⟨hurgent, hnormal, hcurrent, hassembly, hqueue⟩ x P hP
    cases x
    case urgent => exact hcongr _ _ _ (fun r => Bool.eq_iff_iff.mpr ((slot_queued_iff r n).1.trans (hP r).symm)) hurgent
    case normal => exact hcongr _ _ _ (fun r => Bool.eq_iff_iff.mpr ((slot_queued_iff r n).2.trans (hP r).symm)) hnormal
    case transmitter =>
      refine hcongr _ _ _ (fun r => Bool.eq_iff_iff.mpr ?_) hcurrent
      rw [hP, slot_transmitter_iff]
      simp [and_comm]
    case receiver =>
      refine hcongr _ _ _ (fun r => Bool.eq_iff_iff.mpr ?_) hassembly
      rw [hP, slot_receiver_iff]
      simp [and_comm]
    case received =>
      refine hcongr _ _ _ (fun r => Bool.eq_iff_iff.mpr ?_) hqueue
      rw [hP, slot_received_iff]
      simp [and_comm, or_assoc]
  · intro h
    refine ⟨h .urgent _ fun r => (slot_queued_iff r n).1, h .normal _ fun r => (slot_queued_iff r n).2, h .transmitter _ fun r => ?_,
      h .receiver _ fun r => ?_, h .received _ fun r => ?_⟩
    · rw [slot_transmitter_iff]
      simp [and_comm]
    · rw [slot_receiver_iff]
      simp [and_comm]
    · rw [slot_received_iff]
      simp [and_comm, or_assoc]

/-- Standing in a list, record by record. -/
theorem standsIn_iff {s : State} (hw : Table.wf s.store.frames) (places : List Nat) {P : FrameRecord → Bool} {Q : FrameRecord → Prop}
    (hP : ∀ r, P r = true ↔ Q r) : s.standsIn places P ↔ places.Nodup ∧ ∀ i, i ∈ places ↔ ∃ r, s.frame i = some r ∧ Q r := by
  have hany (i : Nat) : (s.frame i).any P = true ↔ ∃ r, s.frame i = some r ∧ Q r := by
    cases hr : s.frame i <;> simp [hP]
  constructor
  · rintro ⟨hnodup, hin, hall⟩
    refine ⟨hnodup, fun i => ⟨fun hi => (hany i).mp (hin i hi), ?_⟩⟩
    rintro ⟨r, hr, hQ⟩
    exact hall (i, r) (State.mem_of_frame hr) ((hP r).mpr hQ)
  · rintro ⟨hnodup, hiff⟩
    exact ⟨hnodup, fun i hi => (hany i).mpr ((hiff i).mp hi), fun p hp hPp =>
      (hiff p.1).mpr ⟨p.2, Table.get_of_mem hw hp, (hP p.2).mp hPp⟩⟩

theorem nodup_map_snd {tags : List (Nat × Nat)} (hw : Table.wf tags)
    (hinj : ∀ a b i, Table.get tags a = some i → Table.get tags b = some i → a = b) : (tags.map Prod.snd).Nodup := by
  refine List.pairwise_map.mpr ((hw.imp_of_mem) fun {a b} ha hb hlt hsame => ?_)
  have hkeys := hinj a.1 b.1 a.2 (Table.get_of_mem hw ha) (hsame ▸ Table.get_of_mem hw hb)
  omega

/-- The custody of the laws is that of the lists. -/
theorem custodyKept_iff {s : State} (h : s.tablesKept) : s.custodyKept ↔ s.Custody := by
  obtain ⟨-, hframes, htags, hrejects⟩ := h
  have hmem (i : Nat) : i ∈ s.tags.map Prod.snd ↔ ∃ tag, Table.get s.tags tag = some i := by
    rw [List.mem_map]
    constructor
    · rintro ⟨⟨tag, j⟩, hin, rfl⟩
      exact ⟨tag, Table.get_of_mem htags hin⟩
    · rintro ⟨tag, hget⟩
      exact ⟨(tag, i), Table.mem_of_get hget, rfl⟩
  have hdecide (P : FrameRecord → Prop) [DecidablePred P] (r : FrameRecord) : decide (P r) = true ↔ P r := decide_eq_true_iff
  have hdone (i : Nat) : .frame i ∈ s.completion ↔ i ∈ s.completion.filterMap EntryRef.frameIndex := by
    rw [List.mem_filterMap]
    constructor
    · exact fun hin => ⟨.frame i, hin, rfl⟩
    · rintro ⟨e, hin, he⟩
      cases e with
      | frame j => cases he; exact hin
      | reject k => cases he
  have hslots (k : Nat) : .reject k ∈ s.completion ↔ k ∈ s.completion.filterMap EntryRef.slot := by
    rw [List.mem_filterMap]
    constructor
    · exact fun hin => ⟨.reject k, hin, rfl⟩
    · rintro ⟨e, hin, he⟩
      cases e with
      | frame j => cases he
      | reject j => cases he; exact hin
  have hframeNodup (hnodup : s.completion.Nodup) : (s.completion.filterMap EntryRef.frameIndex).Nodup :=
    hnodup.filterMap fun a b i ha hb => by
      cases a <;> cases b <;> simp_all [EntryRef.frameIndex]
  constructor
  · rintro ⟨hfits, hlines, ⟨htagged, hagree⟩, hnodup, hdoneIn, hslotIn, hslotAll⟩
    obtain ⟨-, htagged⟩ := (standsIn_iff hframes _ (hdecide _)).mp htagged
    obtain ⟨-, hdoneIff⟩ := (standsIn_iff hframes _ (hdecide _)).mp hdoneIn
    have hline (n : LineNo) (x : Slot) : ((s.line n).standing x).Nodup ∧
        ∀ i, i ∈ (s.line n).standing x ↔ ∃ r, s.frame i = some r ∧ r.line = n ∧ r.slot = some x := by
      classical
      have hP (r : FrameRecord) : decide (r.line = n ∧ r.slot = some x) = true ↔ r.line = n ∧ r.slot = some x := decide_eq_true_iff
      exact (standsIn_iff hframes _ hP).mp ((lineCustody_iff s n).mp (hlines n) x _ hP)
    refine ⟨fun i r hr => hfits (i, r) (State.mem_of_frame hr), fun n x => (hline n x).1, fun n x => (hline n x).2, fun tag i => ?_,
      hnodup, fun i => (hdone i).trans (hdoneIff i), fun k => ⟨fun hin => hslotIn k ((hslots k).mp hin), fun hsome => ?_⟩, htags⟩
    · constructor
      · intro hget
        obtain ⟨r, hr, hlive⟩ := (htagged i).mp ((hmem i).mpr ⟨tag, hget⟩)
        have htag := hagree (tag, i) (Table.mem_of_get hget)
        rw [hr] at htag
        exact ⟨r, hr, hlive, by simpa using htag⟩
      · rintro ⟨r, hr, hlive, rfl⟩
        obtain ⟨tag, hget⟩ := (hmem i).mp ((htagged i).mpr ⟨r, hr, hlive⟩)
        have htag := hagree (tag, i) (Table.mem_of_get hget)
        rw [hr] at htag
        obtain rfl : r.tag = tag := by simpa using htag
        exact hget
    · obtain ⟨e, he⟩ := Option.isSome_iff_exists.mp hsome
      exact hslotAll (k, e) (Table.mem_of_get he)
  · intro hc
    refine ⟨fun p hp => hc.fits p.1 p.2 (Table.get_of_mem hframes hp), fun n => (lineCustody_iff s n).mpr fun x P hP =>
      (standsIn_iff hframes _ hP).mpr ⟨hc.nodup n x, hc.standing n x⟩, ⟨?_, fun p hp => ?_⟩, hc.entries, ?_, fun k hk => ?_, fun p hp => ?_⟩
    · refine (standsIn_iff hframes _ (hdecide _)).mpr ⟨nodup_map_snd htags fun a b i ha hb => ?_, fun i => (hmem i).trans ⟨?_, ?_⟩⟩
      · obtain ⟨r, hr, -, rfl⟩ := (hc.tags a i).mp ha
        obtain ⟨q, hq, -, rfl⟩ := (hc.tags b i).mp hb
        rw [Option.some.inj (hr.symm.trans hq)]
      · rintro ⟨tag, hget⟩
        obtain ⟨r, hr, hlive, -⟩ := (hc.tags tag i).mp hget
        exact ⟨r, hr, hlive⟩
      · rintro ⟨r, hr, hlive⟩
        exact ⟨r.tag, (hc.tags r.tag i).mpr ⟨r, hr, hlive, rfl⟩⟩
    · obtain ⟨r, hr, -, htag⟩ := (hc.tags p.1 p.2).mp (Table.get_of_mem htags hp)
      rw [hr]
      simpa using htag
    · exact (standsIn_iff hframes _ (hdecide _)).mpr ⟨hframeNodup hc.entries, fun i => (hdone i).symm.trans (hc.done i)⟩
    · exact (hc.slots k).mp ((hslots k).mpr hk)
    · refine (hc.slots p.1).mpr ?_
      rw [Table.get_of_mem hrejects hp]
      rfl

/-! ## What the retained records refer to -/

/-- These entries and these frames, each once, wait for the host's acknowledgement (R132, R139, R142). -/
structure State.Awaits (s : State) (entries : List EntryRef) (frames : List Nat) : Prop where
  entriesOnce : entries.Nodup
  reported : ∀ e ∈ entries, e ∈ s.completion ∧ entryReported s e = true
  framesOnce : frames.Nodup
  sent : ∀ i ∈ frames, ∃ r, s.frame i = some r ∧ r.state = .sent

theorem retainedKept_iff (s : State) :
    s.retainedKept ↔ s.Awaits (s.link.retain.flatMap Retained.entries) (s.link.retain.filterMap Retained.lastOf) := by
  have hany (i : Nat) : (s.frame i).any (fun r => decide (r.state = .sent)) = true ↔ ∃ r, s.frame i = some r ∧ r.state = .sent := by
    cases s.frame i <;> simp
  constructor
  · rintro ⟨hentries, hreported, hframes, hsent⟩
    exact ⟨hentries, hreported, hframes, fun i hi => (hany i).mp (hsent i hi)⟩
  · rintro ⟨hentries, hreported, hframes, hsent⟩
    exact ⟨hentries, hreported, hframes, fun i hi => (hany i).mpr (hsent i hi)⟩

/-- The frame records are in custody, and these entries and frames wait for the host. -/
structure State.InOrder (s : State) (entries : List EntryRef) (frames : List Nat) : Prop where
  custody : s.Custody
  awaits : s.Awaits entries frames

/-! ## One record changes its place -/

/-- What happens to a list when one thing changes from standing in it or not to standing in it or not. -/
inductive Change {α : Type} [DecidableEq α] (a : α) (was now : Prop) (old new : List α) : Prop
  | same (h : new = old) (hiff : now ↔ was)
  | left (h : new = old.filter (· ≠ a)) (hnot : ¬ now)
  | joined (h : new = old ++ [a]) (hwas : ¬ was) (hnow : now)

theorem Change.nodup {α : Type} [DecidableEq α] {a : α} {was now : Prop} {old new : List α} (h : Change a was now old new)
    (hold : old.Nodup) (hwas : a ∈ old ↔ was) : new.Nodup := by
  cases h with
  | same h => rwa [h]
  | left h => rw [h]; exact hold.filter _
  | joined h hnot =>
    rw [h]
    exact List.nodup_append.mpr ⟨hold, List.nodup_singleton a, fun b hb c hc hbc => hnot (hwas.mp (by
      rw [List.mem_singleton] at hc; rw [← hc, ← hbc]; exact hb))⟩

theorem Change.mem_iff {α : Type} [DecidableEq α] {a b : α} {was now : Prop} {old new : List α} (h : Change a was now old new)
    (hb : b ≠ a) : b ∈ new ↔ b ∈ old := by
  cases h with
  | same h => rw [h]
  | left h => simp [h, hb]
  | joined h => simp [h, hb]

theorem Change.mem_self_iff {α : Type} [DecidableEq α] {a : α} {was now : Prop} {old new : List α} (h : Change a was now old new)
    (hwas : a ∈ old ↔ was) : a ∈ new ↔ now := by
  cases h with
  | same h hiff => rw [h, hwas, hiff]
  | left h hnot => simp [h, hnot]
  | joined h _ hnow => simp [h, hnow]

/-- Record i, of line n before and after, changes, and with it the lists in which it stands; all else stays. -/
structure Rehomes (i : Nat) (n : LineNo) (s t : State) : Prop where
  frames : ∀ j, j ≠ i → t.frame j = s.frame j
  old : ∀ r, s.frame i = some r → r.line = n
  new : ∀ q, t.frame i = some q → q.line = n ∧ q.Fits
  others : ∀ m, m ≠ n → ∀ x, (t.line m).standing x = (s.line m).standing x
  own : ∀ x, Change i (s.slotOf i = some x) (t.slotOf i = some x) ((s.line n).standing x) ((t.line n).standing x)
  tagsOther : ∀ tag j, j ≠ i → (Table.get t.tags tag = some j ↔ Table.get s.tags tag = some j)
  tagsOwn : ∀ tag, Table.get t.tags tag = some i ↔ ∃ q, t.frame i = some q ∧ q.live ∧ q.tag = tag
  done : Change (.frame i) (s.isDone i) (t.isDone i) s.completion t.completion
  rejects : t.rejects = s.rejects
  tagTable : Table.wf s.tags → Table.wf t.tags

theorem State.slotOf_eq_some_iff {s : State} {i : Nat} {n : LineNo} (hline : ∀ r, s.frame i = some r → r.line = n) (x : Slot) :
    s.slotOf i = some x ↔ ∃ r, s.frame i = some r ∧ r.line = n ∧ r.slot = some x := by
  rw [State.slotOf, Option.bind_eq_some_iff]
  exact ⟨fun ⟨r, hr, hx⟩ => ⟨r, hr, hline r hr, hx⟩, fun ⟨r, hr, _, hx⟩ => ⟨r, hr, hx⟩⟩

theorem Rehomes.custody {i : Nat} {n : LineNo} {s t : State} (h : Rehomes i n s t) (hs : s.Custody) : t.Custody := by
  have hwas (x : Slot) : i ∈ (s.line n).standing x ↔ s.slotOf i = some x :=
    (hs.standing n x i).trans (State.slotOf_eq_some_iff h.old x).symm
  have hdone : .frame i ∈ s.completion ↔ s.isDone i := hs.done i
  refine ⟨fun j r hr => ?_, fun m x => ?_, fun m x j => ?_, fun tag j => ?_, h.done.nodup hs.entries hdone, fun j => ?_, fun k => ?_,
    h.tagTable hs.tagTable⟩
  · by_cases hj : j = i
    · subst hj
      exact (h.new r hr).2
    · exact hs.fits j r (h.frames j hj ▸ hr)
  · by_cases hm : m = n
    · subst hm
      exact (h.own x).nodup (hs.nodup m x) (hwas x)
    · rw [h.others m hm]
      exact hs.nodup m x
  · by_cases hj : j = i
    · subst hj
      by_cases hm : m = n
      · subst hm
        rw [(h.own x).mem_self_iff (hwas x)]
        exact State.slotOf_eq_some_iff (fun q hq => (h.new q hq).1) x
      · rw [h.others m hm, hs.standing]
        constructor
        · rintro ⟨r, hr, hline, -⟩
          exact absurd (hline.symm.trans (h.old r hr)) hm
        · rintro ⟨q, hq, hline, -⟩
          exact absurd (hline.symm.trans (h.new q hq).1) hm
    · rw [h.frames j hj, ← hs.standing]
      by_cases hm : m = n
      · subst hm
        exact (h.own x).mem_iff hj
      · rw [h.others m hm]
  · by_cases hj : j = i
    · subst hj
      exact h.tagsOwn tag
    · rw [h.tagsOther tag j hj, h.frames j hj]
      exact hs.tags tag j
  · by_cases hj : j = i
    · subst hj
      exact h.done.mem_self_iff hdone
    · rw [h.done.mem_iff (fun hsame => hj (EntryRef.frame.inj hsame)), hs.done]
      simp only [State.isDone, h.frames j hj]
  · rw [h.done.mem_iff (b := .reject k) nofun, hs.slots, h.rejects]

/-- A change of one record leaves what waits for the host, unless the record is among it. -/
theorem Rehomes.awaits {i : Nat} {n : LineNo} {s t : State} (h : Rehomes i n s t) {entries : List EntryRef} {frames : List Nat}
    (hs : s.Awaits entries frames) (hentry : .frame i ∉ entries) (hframe : i ∉ frames) : t.Awaits entries frames := by
  refine ⟨hs.entriesOnce, fun e he => ?_, hs.framesOnce, fun j hj => ?_⟩
  · obtain ⟨hin, hreported⟩ := hs.reported e he
    have hne : e ≠ .frame i := fun hsame => hentry (hsame ▸ he)
    refine ⟨(h.done.mem_iff hne).mpr hin, ?_⟩
    cases e with
    | frame j =>
      simpa only [entryReported, h.frames j fun hsame => hne (congrArg EntryRef.frame hsame)] using hreported
    | reject k => simpa only [entryReported, h.rejects] using hreported
  · rw [h.frames j fun hsame => hframe (hsame ▸ hj)]
    exact hs.sent j hj

theorem Rehomes.inOrder {i : Nat} {n : LineNo} {s t : State} (h : Rehomes i n s t) {entries : List EntryRef} {frames : List Nat}
    (hs : s.InOrder entries frames) (hfree : ∀ r, s.frame i = some r → r.state ≠ .done ∧ r.state ≠ .sent) : t.InOrder entries frames := by
  refine ⟨h.custody hs.custody, h.awaits hs.awaits (fun hin => ?_) fun hin => ?_⟩
  · obtain ⟨r, hr, hdone⟩ := (hs.custody.done i).mp (hs.awaits.reported _ hin).1
    exact (hfree r hr).1 hdone
  · obtain ⟨r, hr, hsent⟩ := hs.awaits.sent i hin
    exact (hfree r hr).2 hsent

/-! ## Nothing changes its place -/

/-- The frame records, the lists in which they stand, the tables and the Completion List stay. -/
structure Stays (s t : State) : Prop where
  frames : ∀ i, t.frame i = s.frame i := by intro i; rfl
  standing : ∀ m x, (t.line m).standing x = (s.line m).standing x := by intro m x; rfl
  tags : t.tags = s.tags := by rfl
  completion : t.completion = s.completion := by rfl
  rejects : t.rejects = s.rejects := by rfl

theorem Stays.inOrder {s t : State} (h : Stays s t) {entries : List EntryRef} {frames : List Nat} (hs : s.InOrder entries frames) :
    t.InOrder entries frames := by
  obtain ⟨hcustody, hawaits⟩ := hs
  have hreported (e : EntryRef) : entryReported t e = entryReported s e := by
    cases e <;> simp only [entryReported, h.frames, h.rejects]
  refine ⟨⟨fun i r hr => hcustody.fits i r (h.frames i ▸ hr), fun n x => by rw [h.standing]; exact hcustody.nodup n x, fun n x i => ?_,
    fun tag i => ?_, by rw [h.completion]; exact hcustody.entries, fun i => ?_, fun k => ?_, by rw [h.tags]; exact hcustody.tagTable⟩,
    hawaits.entriesOnce, fun e he => ?_,
    hawaits.framesOnce, fun i hi => ?_⟩
  · rw [h.standing, h.frames]
    exact hcustody.standing n x i
  · rw [h.tags, h.frames]
    exact hcustody.tags tag i
  · simp only [h.completion, State.isDone, h.frames]
    exact hcustody.done i
  · rw [h.completion, h.rejects]
    exact hcustody.slots k
  · rw [h.completion, hreported]
    exact hawaits.reported e he
  · rw [h.frames]
    exact hawaits.sent i hi

theorem Stays.modLine (s : State) (n : LineNo) {f : Line → Line} (h : ∀ x, (f (s.line n)).standing x = (s.line n).standing x) :
    Stays s (s.modLine n f) where
  standing m x := by
    rw [State.line_modLine]
    split
    next hm => rw [h, hm]
    next => rfl

end Sys2Proof.Machine

end

section
-- The proofs below are checked one after another: in parallel each waits for the others with a thread of its own.
set_option Elab.async false

/-! PROOFS. Transmit frames keep their custody: edits of a record in its place, failure, the end of a frame, the take. -/

namespace Sys2Proof.Machine

/-! ## Edits of a record in its place -/

/-- A change of a record that leaves it in its place. -/
structure FrameRecord.SamePlace (r q : FrameRecord) : Prop where
  line : q.line = r.line
  tag : q.tag = r.tag
  slot : q.slot = r.slot
  live : q.live ↔ r.live
  done : q.state = .done ↔ r.state = .done
  fits : r.Fits → q.Fits

/-- A change of a record that leaves it in its place, and awaiting the host if it did. -/
structure FrameRecord.Alike (r q : FrameRecord) : Prop extends FrameRecord.SamePlace r q where
  sent : r.state = .sent → q.state = .sent
  reported : r.reported = true → q.reported = true

theorem FrameRecord.Alike.refl (r : FrameRecord) : r.Alike r := ⟨⟨rfl, rfl, rfl, .rfl, .rfl, id⟩, id, id⟩

/-- A change of other fields than those the custody is about. -/
theorem FrameRecord.alike_of_state {r q : FrameRecord} (hkind : q.kind = r.kind) (hstate : q.state = r.state) (hline : q.line = r.line)
    (hpriority : q.priority = r.priority) (htag : q.tag = r.tag) (hreported : q.reported = r.reported)
    (hchain : r.state = .discarding ∨ r.state = .done → r.chain = [] → q.chain = []) : r.Alike q where
  line := hline
  tag := htag
  slot := by simp only [FrameRecord.slot, hstate, hpriority]
  live := by simp only [FrameRecord.live, hstate]
  done := by rw [hstate]
  sent h := hstate.trans h
  reported h := hreported.trans h
  fits h := by
    refine ⟨by rw [hkind, hstate]; exact h.1, fun hat => ?_⟩
    rw [hstate] at hat
    exact hchain hat (h.2 hat)

/-- Every record is changed in its place, and nothing else that the custody is about. -/
structure InPlace (R : FrameRecord → FrameRecord → Prop) (s t : State) : Prop where
  frames : ∀ i, (s.frame i = none ∧ t.frame i = none) ∨ ∃ r q, s.frame i = some r ∧ t.frame i = some q ∧ R r q
  standing : ∀ m x, (t.line m).standing x = (s.line m).standing x := by intro m x; rfl
  tags : t.tags = s.tags := by rfl
  completion : t.completion = s.completion := by rfl
  rejects : ∀ k, (Table.get t.rejects k).isSome = (Table.get s.rejects k).isSome := by intro k; rfl

theorem InPlace.custody {s t : State} (h : InPlace FrameRecord.SamePlace s t) (hs : s.Custody) : t.Custody := by
  have hframe (i : Nat) {P Q : FrameRecord → Prop} (hPQ : ∀ r q, r.SamePlace q → (Q q ↔ P r)) :
      (∃ q, t.frame i = some q ∧ Q q) ↔ ∃ r, s.frame i = some r ∧ P r := by
    rcases h.frames i with ⟨hr, hq⟩ | ⟨r, q, hr, hq, hsame⟩
    · simp [hr, hq]
    · simp only [hr, hq, Option.some.injEq, exists_eq_left', hPQ r q hsame]
  refine ⟨fun i p hp => ?_, fun m x => by rw [h.standing]; exact hs.nodup m x, fun m x i => ?_, fun tag i => ?_,
    by rw [h.completion]; exact hs.entries, fun i => ?_, fun k => by rw [h.completion, h.rejects]; exact hs.slots k,
    by rw [h.tags]; exact hs.tagTable⟩
  · rcases h.frames i with ⟨-, hq⟩ | ⟨r, q, hr, hq, hsame⟩
    · exact absurd (hq.symm.trans hp) nofun
    · rw [← Option.some.inj (hq.symm.trans hp)]
      exact hsame.fits (hs.fits i r hr)
  · rw [h.standing, hs.standing]
    exact (hframe i fun r q hsame => by rw [hsame.line, hsame.slot]).symm
  · rw [h.tags, hs.tags]
    exact (hframe i fun r q hsame => by rw [hsame.live, hsame.tag]).symm
  · rw [h.completion, hs.done]
    exact (hframe i fun r q hsame => hsame.done).symm

theorem InPlace.inOrder {s t : State} (h : InPlace FrameRecord.Alike s t) (hrejects : t.rejects = s.rejects) {entries : List EntryRef}
    {frames : List Nat} (hs : s.InOrder entries frames) : t.InOrder entries frames := by
  have hplaces : InPlace FrameRecord.SamePlace s t :=
    { h with frames := fun i => (h.frames i).imp_right fun ⟨r, q, hr, hq, halike⟩ => ⟨r, q, hr, hq, halike.toSamePlace⟩ }
  refine ⟨hplaces.custody hs.custody, hs.awaits.entriesOnce, fun e he => ?_, hs.awaits.framesOnce, fun i hi => ?_⟩
  · obtain ⟨hin, hreported⟩ := hs.awaits.reported e he
    refine ⟨by rw [h.completion]; exact hin, ?_⟩
    cases e with
    | frame i =>
      simp only [entryReported] at hreported ⊢
      rcases h.frames i with ⟨-, hq⟩ | ⟨r, q, hr, hq, halike⟩
      · rw [hq]
        rfl
      · rw [hr] at hreported
        rw [hq]
        exact halike.reported hreported
    | reject k => simpa only [entryReported, hrejects] using hreported
  · obtain ⟨p, hp, hsent⟩ := hs.awaits.sent i hi
    rcases h.frames i with ⟨hr, -⟩ | ⟨r, q, hr, hq, halike⟩
    · exact absurd (hp.symm.trans hr) nofun
    · exact ⟨q, hq, halike.sent (by rwa [Option.some.inj (hr.symm.trans hp)])⟩

/-- Record i is changed in its place, and nothing else that the custody is about. -/
structure Touches (i : Nat) (s t : State) : Prop where
  frames : ∀ j, j ≠ i → t.frame j = s.frame j
  record : (s.frame i = none ∧ t.frame i = none) ∨ ∃ r q, s.frame i = some r ∧ t.frame i = some q ∧ r.Alike q
  lines : t.lines = s.lines
  tags : t.tags = s.tags
  completion : t.completion = s.completion
  rejects : t.rejects = s.rejects

theorem Touches.refl (i : Nat) (s : State) : Touches i s s where
  frames _ _ := rfl
  record := by
    cases hr : s.frame i with
    | none => exact .inl ⟨rfl, rfl⟩
    | some r => exact .inr ⟨r, r, rfl, rfl, .refl r⟩
  lines := rfl
  tags := rfl
  completion := rfl
  rejects := rfl

theorem touches_putFrame {s : State} {i : Nat} {r q : FrameRecord} (hr : s.frame i = some r) (h : r.Alike q) :
    Touches i s (s.putFrame i q) :=
  ⟨fun _ hj => State.frame_putFrame_of_ne _ _ hj, .inr ⟨r, q, hr, State.frame_putFrame_self .., h⟩, rfl, rfl, rfl, rfl⟩

theorem touches_modFrame (i : Nat) {f : FrameRecord → FrameRecord} (s : State) (h : ∀ r, s.frame i = some r → r.Alike (f r)) :
    Touches i s (s.modFrame i f) := by
  cases hr : s.frame i with
  | none =>
    have hsame : s.modFrame i f = s := by simp only [State.modFrame, hr]
    rw [hsame]
    exact .refl i s
  | some r =>
    rw [State.modFrame_of_frame hr]
    exact touches_putFrame hr (h r hr)

theorem Touches.inPlace {i : Nat} {s t : State} (h : Touches i s t) : InPlace FrameRecord.Alike s t where
  frames j := by
    by_cases hj : j = i
    · rw [hj]
      exact h.record
    · rw [h.frames j hj]
      cases hr : s.frame j with
      | none => exact .inl ⟨rfl, rfl⟩
      | some r => exact .inr ⟨r, r, rfl, rfl, .refl r⟩
  standing m x := by rw [State.line_of_lines_eq h.lines m]
  tags := h.tags
  completion := h.completion
  rejects k := by rw [h.rejects]

theorem Touches.inOrder {i : Nat} {s t : State} (h : Touches i s t) {entries : List EntryRef} {frames : List Nat}
    (hs : s.InOrder entries frames) : t.InOrder entries frames := h.inPlace.inOrder h.rejects hs

/-! ## Appending -/

theorem frame_appendOctet_of_ne {k : CellClaim} {i j : Nat} {b : Byte} {s t : State} (h : appendOctet k i b s = some t) (hj : j ≠ i) :
    t.frame j = s.frame j := by
  obtain ⟨r, -, ⟨c, -, -, rfl⟩ | ⟨c, u, -, hclaim, rfl⟩⟩ := appendOctet_eq_some h
  · exact State.frame_putFrame_of_ne _ _ hj
  · obtain ⟨-, hu⟩ := claimCell_eq_some hclaim
    rw [State.frame_putFrame_of_ne _ _ hj, hu]
    rfl

/-- The record may hold cells: it is neither in DISCARDING nor in DONE. -/
def FrameRecord.holdsCells (r : FrameRecord) : Prop := ¬ (r.state = .discarding ∨ r.state = .done)

theorem touches_appendOctet {k : CellClaim} {i : Nat} {b : Byte} {s t : State} (h : appendOctet k i b s = some t)
    (hopen : ∀ r, s.frame i = some r → r.holdsCells) : Touches i s t := by
  have hside := lineSide_appendOctet h
  obtain ⟨r, hr, ⟨c, -, -, ht⟩ | ⟨c, u, -, hclaim, ht⟩⟩ := appendOctet_eq_some h
  · have hframe : t.frame i = some { r with chain := r.chain.dropLast ++ [{ c with fill := c.fill + 1 }], stored := r.stored + 1 } := by
      rw [ht]
      exact State.frame_putFrame_self ..
    refine ⟨fun j hj => frame_appendOctet_of_ne h hj, .inr ⟨r, _, hr, hframe, ?_⟩, lines_of_appendOctet h, ?_, ?_, hside.rejects⟩
    · exact FrameRecord.alike_of_state rfl rfl rfl rfl rfl rfl fun hat => absurd hat (hopen r hr)
    · rw [ht]; rfl
    · rw [ht]; rfl
  · obtain ⟨-, hu⟩ := claimCell_eq_some hclaim
    have hframe : t.frame i = some { r with chain := r.chain ++ [{ cell := c, fill := 1 }], stored := r.stored + 1 } := by
      rw [ht]
      exact State.frame_putFrame_self ..
    refine ⟨fun j hj => frame_appendOctet_of_ne h hj, .inr ⟨r, _, hr, hframe, ?_⟩, lines_of_appendOctet h, ?_, ?_, hside.rejects⟩
    · exact FrameRecord.alike_of_state rfl rfl rfl rfl rfl rfl fun hat => absurd hat (hopen r hr)
    · rw [ht, hu]; rfl
    · rw [ht, hu]; rfl

theorem state_appendOctet {k : CellClaim} {i : Nat} {b : Byte} {s t : State} (h : appendOctet k i b s = some t) {q : FrameRecord}
    (hq : t.frame i = some q) : ∃ r, s.frame i = some r ∧ q.state = r.state := by
  obtain ⟨r, hr, ⟨c, -, -, ht⟩ | ⟨c, u, -, -, ht⟩⟩ := appendOctet_eq_some h <;>
    refine ⟨r, hr, ?_⟩ <;>
    · rw [ht, State.frame_putFrame_self] at hq
      rw [← Option.some.inj hq]

section InOrder

variable {entries : List EntryRef} {frames : List Nat}

theorem inOrder_appendOctets (k : CellClaim) (i : Nat) (bs : List Byte) {s : State} (hs : s.InOrder entries frames)
    (hopen : ∀ r, s.frame i = some r → r.holdsCells) : (appendOctets k i bs s).1.InOrder entries frames := by
  induction bs generalizing s with
  | nil => exact hs
  | cons b bs ih =>
    simp only [appendOctets]
    split
    · exact hs
    next happend =>
      refine ih ((touches_appendOctet happend hopen).inOrder hs) fun q hq => ?_
      obtain ⟨r, hr, hstate⟩ := state_appendOctet happend hq
      have hholds := hopen r hr
      rwa [FrameRecord.holdsCells, ← hstate] at hholds

theorem inOrder_storeData (i : Nat) (data : List Byte) {s : State} (hs : s.InOrder entries frames)
    (hopen : ∀ r, s.frame i = some r → r.holdsCells) : (storeData i data s).1.InOrder entries frames := by
  unfold storeData
  split
  · exact hs
  · split
    · exact hs
    · have hstored := inOrder_appendOctets .transmitData i data hs hopen
      split
      next heq => rwa [heq] at hstored
      next heq => rwa [heq] at hstored

theorem inOrder_setComplete (i : Nat) {s : State} (hs : s.InOrder entries frames) : (setComplete i s).InOrder entries frames :=
  (touches_modFrame i (f := fun r => { r with complete := true }) s fun _ _ => FrameRecord.alike_of_state rfl rfl rfl rfl rfl rfl fun _ => id).inOrder hs

/-! ## A frame leaves its place for DONE or DISCARDING -/

/-- The record of i, r before, has left the list in which it stood, its chain released; all else is as in s. -/
structure Withdrawn (i : Nat) (r : FrameRecord) (s u : State) : Prop where
  record : ∃ q, u.frame i = some q ∧ q.kind = r.kind ∧ q.state = r.state ∧ q.line = r.line ∧ q.tag = r.tag ∧ q.chain = []
  frames : ∀ j, j ≠ i → u.frame j = s.frame j
  others : ∀ m, m ≠ r.line → ∀ x, (u.line m).standing x = (s.line m).standing x
  left : ∀ x, r.slot = some x → (u.line r.line).standing x = ((s.line r.line).standing x).filter (· ≠ i)
  stays : ∀ x, r.slot ≠ some x → (u.line r.line).standing x = (s.line r.line).standing x
  tags : u.tags = s.tags
  completion : u.completion = s.completion
  rejects : u.rejects = s.rejects

theorem Line.standing_countDone (how : DoneTally) (l : Line) (x : Slot) : (l.countDone how).standing x = l.standing x := by
  rw [Line.countDone_eq]
  cases x <;> rfl

/-- The lists after the record has left for a state in which it stands nowhere. -/
theorem Withdrawn.change {i : Nat} {r q : FrameRecord} {s t : State} (hr : s.frame i = some r) (hq : t.frame i = some q)
    (hnone : q.slot = none) (hleft : ∀ x, r.slot = some x → (t.line r.line).standing x = ((s.line r.line).standing x).filter (· ≠ i))
    (hstays : ∀ x, r.slot ≠ some x → (t.line r.line).standing x = (s.line r.line).standing x) (x : Slot) :
    Change i (s.slotOf i = some x) (t.slotOf i = some x) ((s.line r.line).standing x) ((t.line r.line).standing x) := by
  have hwas : s.slotOf i = r.slot := by simp only [State.slotOf, hr, Option.bind_some]
  have hnow : t.slotOf i = none := by simp only [State.slotOf, hq, Option.bind_some, hnone]
  by_cases hx : r.slot = some x
  · exact .left (hleft x hx) (by rw [hnow]; nofun)
  · exact .same (hstays x hx) (by rw [hwas, hnow]; exact iff_of_false nofun hx)

theorem Withdrawn.rehomes_enterDone {i : Nat} {r : FrameRecord} {s u : State} (h : Withdrawn i r s u) (hs : s.Custody)
    (hr : s.frame i = some r) (hlive : r.live) (how : DoneTally) : Rehomes i r.line s (enterDone how i u) := by
  obtain ⟨q, hq, hkind, hstate, hline, htag, hchain⟩ := h.record
  have hframe : (enterDone how i u).frame i = some { q with state := .done } := by
    rw [enterDone_of_frame how hq]
    exact State.frame_putFrame_self ..
  have hlists (m : LineNo) (x : Slot) : ((enterDone how i u).line m).standing x = (u.line m).standing x := by
    rw [enterDone_of_frame how hq, State.line_modLine]
    split
    next hm => rw [Line.standing_countDone, hm]; rfl
    next => rfl
  have hfits := hs.fits i r hr
  have hget : Table.get s.tags r.tag = some i := (hs.tags r.tag i).mpr ⟨r, hr, hlive, rfl⟩
  have htags : (enterDone how i u).tags = Table.del s.tags r.tag := by
    rw [enterDone_of_frame how hq, ← htag, ← h.tags]
    rfl
  refine ⟨fun j hj => ?_, fun p hp => by rw [← Option.some.inj (hr.symm.trans hp)], fun p hp => ?_, fun m hm x => ?_,
    Withdrawn.change hr hframe rfl (fun x hx => (hlists _ x).trans (h.left x hx)) (fun x hx => (hlists _ x).trans (h.stays x hx)),
    fun tag j hj => ?_, fun tag => ?_, .joined ?_ ?_ ⟨_, hframe, rfl⟩, ?_,
    by rw [htags]; exact Table.wf_del _⟩
  · rw [enterDone_of_frame how hq, State.frame_modLine, State.frame_putFrame_of_ne _ _ hj]
    exact h.frames j hj
  · rw [← Option.some.inj (hframe.symm.trans hp)]
    refine ⟨hline, ?_, fun _ => hchain⟩
    show q.kind = .tx ↔ _
    rw [hkind, hfits.1]
    exact iff_of_true hlive.1 (.inr (.inr (.inr (.inr rfl))))
  · rw [hlists, h.others m hm]
  · rw [htags]
    by_cases hat : tag = r.tag
    · subst hat
      rw [Table.get_del_self, hget]
      exact iff_of_false nofun fun hij => hj (Option.some.inj hij).symm
    · rw [Table.get_del_of_ne _ hat]
  · rw [htags, hframe]
    refine iff_of_false (fun hin => ?_) ?_
    · by_cases hat : tag = r.tag
      · subst hat
        rw [Table.get_del_self] at hin
        cases hin
      · rw [Table.get_del_of_ne _ hat, hs.tags, hr] at hin
        obtain ⟨p, hp, -, rfl⟩ := hin
        exact hat (by rw [← Option.some.inj hp])
    · rintro ⟨p, hp, hplive, -⟩
      rw [← Option.some.inj hp] at hplive
      exact hplive.2 rfl
  · rw [enterDone_of_frame how hq, ← h.completion]
    rfl
  · rintro ⟨p, hp, hdone⟩
    rw [← Option.some.inj (hr.symm.trans hp)] at hdone
    exact hlive.2 hdone
  · rw [enterDone_of_frame how hq, ← h.rejects]
    rfl

theorem FrameRecord.live.free {s : State} {i : Nat} {r : FrameRecord} (hlive : r.live) (hr : s.frame i = some r) (p : FrameRecord)
    (hp : s.frame i = some p) : p.state ≠ .done ∧ p.state ≠ .sent := by
  rw [← Option.some.inj (hr.symm.trans hp)]
  refine ⟨hlive.2, fun hsent => ?_⟩
  have htx := hlive.1
  simp [FrameState.ofTx, hsent] at htx

theorem Withdrawn.enterDone {i : Nat} {r : FrameRecord} {s u : State} (h : Withdrawn i r s u) (hs : s.InOrder entries frames)
    (hr : s.frame i = some r) (hlive : r.live) (how : DoneTally) : (enterDone how i u).InOrder entries frames :=
  (h.rehomes_enterDone hs.custody hr hlive how).inOrder hs (hlive.free hr)

theorem Withdrawn.enterDiscarding {i : Nat} {r : FrameRecord} {s u : State} (h : Withdrawn i r s u) (hs : s.InOrder entries frames)
    (hr : s.frame i = some r) (hlive : r.live) : (enterDiscarding i u).InOrder entries frames := by
  obtain ⟨q, hq, hkind, hstate, hline, htag, hchain⟩ := h.record
  rw [enterDiscarding_of_frame hq]
  split
  · exact h.enterDone hs hr hlive .flushed
  · have hframe : (u.putFrame i { q with state := .discarding }).frame i = some { q with state := .discarding } :=
      State.frame_putFrame_self ..
    have hfits := hs.custody.fits i r hr
    refine Rehomes.inOrder (i := i) (n := r.line) (t := u.putFrame i { q with state := .discarding })
      ⟨fun j hj => ?_, fun p hp => by rw [← Option.some.inj (hr.symm.trans hp)], fun p hp => ?_, h.others,
      Withdrawn.change hr hframe rfl h.left h.stays, fun tag j hj => ?_, fun tag => ?_, .same h.completion ?_, h.rejects,
      fun hw => (congrArg Table.wf h.tags).mpr hw⟩ hs (hlive.free hr)
    · rw [State.frame_putFrame_of_ne _ _ hj]
      exact h.frames j hj
    · rw [← Option.some.inj (hframe.symm.trans hp)]
      refine ⟨hline, ?_, fun _ => hchain⟩
      show q.kind = .tx ↔ _
      rw [hkind, hfits.1]
      exact iff_of_true hlive.1 (.inr (.inr (.inr (.inl rfl))))
    · show Table.get u.tags tag = some j ↔ _
      rw [h.tags]
    · show Table.get u.tags tag = some i ↔ _
      rw [h.tags, hs.custody.tags, hr, hframe]
      simp only [Option.some.injEq, exists_eq_left', htag]
      refine and_congr_left fun _ => iff_of_true hlive ⟨.inr (.inr (.inr (.inl rfl))), nofun⟩
    · simp only [State.isDone, hr, hframe, Option.some.injEq, exists_eq_left']
      exact iff_of_false nofun hlive.2

theorem Line.standing_unqueue (p : Priority) (i : Nat) (l : Line) (x : Slot) :
    (some x = some (match p with | .urgent => Slot.urgent | .normal => Slot.normal) → (l.unqueue p i).standing x = (l.standing x).filter (· ≠ i)) ∧
      (some x ≠ some (match p with | .urgent => Slot.urgent | .normal => Slot.normal) → (l.unqueue p i).standing x = l.standing x) := by
  cases p <;> cases x <;> simp [Line.unqueue, Line.standing]

/-- A waiting frame leaves its queue, with its outcome or as it was. -/
theorem withdrawn_waiting {i : Nat} {r q : FrameRecord} {s : State} (hw : r.waits) (hkind : q.kind = r.kind)
    (hstate : q.state = r.state) (hline : q.line = r.line) (hpriority : q.priority = r.priority) (htag : q.tag = r.tag) :
    Withdrawn i r s (releaseChain i (leaveQueue i (s.putFrame i q))) := by
  have hslot : r.slot = some (match r.priority with | .urgent => Slot.urgent | .normal => Slot.normal) := by
    rcases hw with hat | hat <;> rw [FrameRecord.slot, hat] <;> rfl
  rw [releaseChain_leaveQueue]
  refine ⟨⟨_, State.frame_putFrame_self .., hkind, hstate, hline, htag, rfl⟩, fun j hj => State.frame_putFrame_of_ne _ _ hj,
    fun m hm x => ?_, fun x hx => ?_, fun x hx => ?_, rfl, rfl, rfl⟩
  · rw [hline, State.line_modLine_of_ne _ _ hm]
    rfl
  · rw [hline, State.line_modLine_self, hpriority]
    exact (Line.standing_unqueue r.priority i _ x).1 (hx.symm.trans hslot)
  · rw [hline, State.line_modLine_self, hpriority]
    exact (Line.standing_unqueue r.priority i _ x).2 fun hat => hx (hslot.trans hat.symm)

theorem FrameRecord.waits.live {r : FrameRecord} (h : r.waits) : r.live := by
  rcases h with hstate | hstate <;> simp [FrameRecord.live, FrameState.ofTx, hstate]

theorem inOrder_failFrame (o : FrameOutcome) (i : Nat) {s : State} (hs : s.InOrder entries frames) :
    (failFrame o i s).InOrder entries frames := by
  cases hr : s.frame i with
  | none =>
    have hsame : failFrame o i s = s := by simp only [failFrame, hr]
    rwa [hsame]
  | some r =>
    by_cases hw : r.waits
    · have hwithdrawn : Withdrawn i r s (releaseChain i (leaveQueue i (s.putFrame i (r.fixOutcome o)))) :=
        withdrawn_waiting hw rfl rfl rfl rfl rfl
      rw [failFrame_of_waiting o hr hw]
      dsimp only
      split
      · exact hwithdrawn.enterDone hs hr hw.live .completed
      · exact hwithdrawn.enterDiscarding hs hr hw.live
    · by_cases hsending : r.state = .sending
      · rw [failFrame_of_sending o hr hsending]
        exact (touches_putFrame (q := r.fixOutcome o) hr (FrameRecord.alike_of_state rfl rfl rfl rfl rfl rfl fun _ => id)).inOrder hs
      · rwa [failFrame_of_other o hr hw hsending]

theorem inOrder_expireLine (n : LineNo) {s : State} (hs : s.InOrder entries frames) : (expireLine n s).InOrder entries frames := by
  unfold expireLine
  dsimp only
  split
  · exact hs
  · exact foldl_keeps (P := fun t => t.InOrder entries frames) (fun _ i ht => inOrder_failFrame .expired i ht) _ hs

/-- A DISCARDING frame stands nowhere and holds no cells. -/
theorem withdrawn_discarding {i : Nat} {r : FrameRecord} {s : State} (hs : s.Custody) (hr : s.frame i = some r)
    (hstate : r.state = .discarding) : Withdrawn i r s s :=
  ⟨⟨r, hr, rfl, rfl, rfl, rfl, (hs.fits i r hr).2 (.inl hstate)⟩, fun _ _ => rfl, fun _ _ _ => rfl,
    fun x hx => by simp [FrameRecord.slot, FrameState.slot, hstate] at hx, fun _ _ => rfl, rfl, rfl, rfl⟩

theorem inOrder_doneDiscarding {i : Nat} {r : FrameRecord} {s : State} (hs : s.InOrder entries frames) (hr : s.frame i = some r)
    (hstate : r.state = .discarding) (how : DoneTally) : (enterDone how i s).InOrder entries frames :=
  (withdrawn_discarding hs.custody hr hstate).enterDone hs hr (by simp [FrameRecord.live, FrameState.ofTx, hstate]) how

/-- The waiting frames of a list fail with FLUSHED one after another, if each of them waits when its turn comes. -/
theorem inOrder_flushQueued {i : Nat} {r : FrameRecord} {s : State} (hs : s.InOrder entries frames) (hr : s.frame i = some r)
    (hw : r.waits) : (flushQueued i s).InOrder entries frames := by
  simp only [flushQueued, hr]
  exact (withdrawn_waiting (q := r.fixOutcome .flushed) hw rfl rfl rfl rfl rfl).enterDone hs hr hw.live .flushed

end InOrder

end Sys2Proof.Machine

end

section
-- The proofs below are checked one after another: in parallel each waits for the others with a thread of its own.
set_option Elab.async false

/-! PROOFS. Transmit frames keep their custody: closing, later segments, the flush handling, the first segment, the take, the end of a
frame. -/

namespace Sys2Proof.Machine

section InOrder

variable {entries : List EntryRef} {frames : List Nat} {s : State} {n : LineNo} {i : Nat}

/-! ## Segments -/

theorem inOrder_closeFrame (i : Nat) (hs : s.InOrder entries frames) : (closeFrame i s).InOrder entries frames := by
  have hcomplete := inOrder_setComplete i hs
  unfold closeFrame
  dsimp only
  split
  · exact hcomplete
  next r hr =>
    split
    · split
      next hfilling =>
        have halike : r.Alike { r with state := .ready } :=
          { line := rfl, tag := rfl, reported := id
            slot := by simp only [FrameRecord.slot, hfilling, FrameState.slot]
            live := by simp [FrameRecord.live, FrameState.ofTx, hfilling]
            done := by simp [hfilling]
            sent := by simp [hfilling]
            fits := fun h => ⟨h.1.trans (by simp [FrameState.ofTx, hfilling]), nofun⟩ }
        exact (touches_putFrame hr halike).inOrder hcomplete
      next => exact hcomplete
    · exact inOrder_failFrame .length i hcomplete

theorem inOrder_storeAndClose (i : Nat) (data : List Byte) (last : Bool) (hs : s.InOrder entries frames)
    (hopen : ∀ r, s.frame i = some r → r.holdsCells) : (storeAndClose i data last s).InOrder entries frames := by
  have hstored := inOrder_storeData i data hs hopen
  unfold storeAndClose
  split
  next heq =>
    rw [heq] at hstored
    split
    · exact inOrder_closeFrame i hstored
    · exact hstored
  next o heq =>
    rw [heq] at hstored
    refine inOrder_failFrame o i ?_
    split
    · exact inOrder_setComplete i hstored
    · exact hstored

theorem inOrder_laterSegment (g : Segment) (hs : s.InOrder entries frames) : (laterSegment g s).InOrder entries frames := by
  have hstray : (countStray s).InOrder entries frames := Stays.inOrder {} hs
  unfold laterSegment
  split
  · exact hstray
  next i _ =>
    split
    · exact hstray
    next r hr =>
      have hstore (hstate : r.state ≠ .discarding ∧ r.state ≠ .done) : (storeAndClose i g.data g.last s).InOrder entries frames :=
        inOrder_storeAndClose i _ _ hs fun q hq => by
          rw [← Option.some.inj (hr.symm.trans hq), FrameRecord.holdsCells]
          exact not_or.mpr hstate
      have hfail := inOrder_failFrame .length i hs
      split
      next hstate => exact hstore (by simp [hstate])
      next hstate =>
        split_ifs
        · exact inOrder_setComplete i hs
        · exact hs
        · exact hs
        · exact hfail
        · exact hstore (by simp [hstate])
      next =>
        split_ifs
        · exact hs
        · exact hfail
      next hstate =>
        split
        · have hframe : (setComplete i s).frame i = some { r with complete := true } := by
            rw [setComplete, State.frame_modFrame_self, hr]
            rfl
          exact inOrder_doneDiscarding (inOrder_setComplete i hs) hframe hstate .completed
        · exact hs
      next => exact hs

theorem Line.standing_enqueue (urgent : Bool) (i : Nat) (l : Line) (x : Slot) :
    (x = (if urgent then .urgent else .normal) → (l.enqueue urgent i).standing x = l.standing x ++ [i]) ∧
      (x ≠ (if urgent then .urgent else .normal) → (l.enqueue urgent i).standing x = l.standing x) := by
  cases urgent <;> cases x <;> simp [Line.enqueue, Line.standing]

/-- A new record joins a list of its line, and its tag the Tag Map if it is a TX record. -/
theorem inOrder_acceptFirst {g : Segment} (h : firstCheck g s = .ok (n, i)) (hs : s.InOrder entries frames) :
    (acceptFirst g n i s).InOrder entries frames := by
  obtain ⟨-, htag, -, hclaim⟩ := firstCheck_eq_ok h
  have hfree : s.frame i = none := frame_of_claimRecord hclaim
  have hwas (x : Slot) : ¬ s.slotOf i = some x := by simp [State.slotOf, hfree]
  let t : State := State.modLine { s.putFrame i (FrameRecord.newTx n g) with tags := Table.put s.tags g.tag i } n (Line.enqueue g.urgent i)
  have hframe : t.frame i = some (FrameRecord.newTx n g) := State.frame_putFrame_self ..
  have hlive : (FrameRecord.newTx n g).live := ⟨.inl rfl, nofun⟩
  have hnow (x : Slot) : t.slotOf i = some x ↔ x = if g.urgent then .urgent else .normal := by
    simp only [State.slotOf, hframe, Option.bind_some, FrameRecord.slot, FrameRecord.newTx, FrameState.slot, Option.some.injEq]
    cases g.urgent <;> exact eq_comm
  have hlist (x : Slot) : (x = (if g.urgent then .urgent else .normal) → (t.line n).standing x = (s.line n).standing x ++ [i]) ∧
      (x ≠ (if g.urgent then .urgent else .normal) → (t.line n).standing x = (s.line n).standing x) := by
    rw [State.line_modLine_self]
    exact Line.standing_enqueue g.urgent i (s.line n) x
  have hrehomes : Rehomes i n s t := by
    refine ⟨fun j hj => State.frame_putFrame_of_ne _ _ hj, fun r hr => (by rw [hfree] at hr; cases hr), fun q hq => ?_, fun m hm x => ?_,
      fun x => ?_, fun tag j hj => ?_, fun tag => ?_, .same rfl ?_, rfl, Table.wf_put _ _⟩
    · rw [← Option.some.inj (hframe.symm.trans hq)]
      exact ⟨rfl, iff_of_true rfl (.inl rfl), by simp [FrameRecord.newTx]⟩
    · rw [State.line_modLine_of_ne _ _ hm]
      rfl
    · by_cases hx : x = if g.urgent then .urgent else .normal
      · exact .joined ((hlist x).1 hx) (hwas x) ((hnow x).mpr hx)
      · exact .same ((hlist x).2 hx) (iff_of_false (fun hat => hx ((hnow x).mp hat)) (hwas x))
    · show Table.get (Table.put s.tags g.tag i) tag = some j ↔ _
      by_cases hat : tag = g.tag
      · rw [hat, Table.get_put_self, htag]
        exact iff_of_false (fun hij => hj (Option.some.inj hij).symm) nofun
      · rw [Table.get_put_of_ne _ _ hat]
    · show Table.get (Table.put s.tags g.tag i) tag = some i ↔ _
      rw [hframe]
      simp only [Option.some.injEq, exists_eq_left', hlive, true_and]
      by_cases hat : tag = g.tag
      · rw [hat, Table.get_put_self]
        exact iff_of_true rfl rfl
      · rw [Table.get_put_of_ne _ _ hat, hs.custody.tags, hfree]
        exact iff_of_false (by rintro ⟨_, hnone, -⟩; cases hnone) fun hsame => hat hsame.symm
    · simp only [State.isDone, hfree, hframe]
      exact iff_of_false (by simp [FrameRecord.newTx]) (by simp)
  refine inOrder_storeAndClose i g.data g.last (s := t) (hrehomes.inOrder hs fun r hr => ?_) fun r hr => ?_
  · rw [hfree] at hr
    cases hr
  · rw [← Option.some.inj (hframe.symm.trans hr)]
    simp [FrameRecord.holdsCells, FrameRecord.newTx]

/-! ## Frames taken one after another -/

/-- What is done to each of these records in turn, each once, keeps the custody, if it touches no other record. -/
theorem inOrder_foldl {f : State → Nat → State} {P : FrameRecord → Prop}
    (hf : ∀ {i : Nat} {r : FrameRecord} {s : State}, s.InOrder entries frames → s.frame i = some r → P r → (f s i).InOrder entries frames)
    (hother : ∀ (s : State) (i j : Nat), j ≠ i → (f s i).frame j = s.frame j) {is : List Nat} (hnodup : is.Nodup)
    (hall : ∀ i ∈ is, ∃ r, s.frame i = some r ∧ P r) (hs : s.InOrder entries frames) : (is.foldl f s).InOrder entries frames := by
  induction is generalizing s with
  | nil => exact hs
  | cons i is ih =>
    obtain ⟨hnot, hnodup⟩ := List.nodup_cons.mp hnodup
    obtain ⟨r, hr, hP⟩ := hall i List.mem_cons_self
    refine ih hnodup (fun j hj => ?_) (hf hs hr hP)
    rw [hother s i j fun hsame => hnot (hsame ▸ hj)]
    exact hall j (List.mem_cons_of_mem _ hj)

theorem State.Custody.waits_of_queued {j : Nat} (hs : s.Custody) (hj : j ∈ (s.line n).queued) : ∃ r, s.frame j = some r ∧ r.waits := by
  have hslot {r : FrameRecord} (hat : r.slot = some .urgent ∨ r.slot = some .normal) : r.waits := by
    cases hstate : r.state <;> cases hpriority : r.priority <;>
      simp [FrameRecord.slot, FrameState.slot, hstate, hpriority, FrameRecord.waits] at hat ⊢
  rcases List.mem_append.mp hj with hj | hj
  · obtain ⟨r, hr, -, hat⟩ := (hs.standing n .urgent j).mp hj
    exact ⟨r, hr, hslot (.inl hat)⟩
  · obtain ⟨r, hr, -, hat⟩ := (hs.standing n .normal j).mp hj
    exact ⟨r, hr, hslot (.inr hat)⟩

/-- No record stands in two lists of its line. -/
theorem State.Custody.slot_unique {j : Nat} {x y : Slot} (hs : s.Custody) (hx : j ∈ (s.line n).standing x) (hy : j ∈ (s.line n).standing y) :
    x = y := by
  obtain ⟨r, hr, -, hat⟩ := (hs.standing n x j).mp hx
  obtain ⟨q, hq, -, hat'⟩ := (hs.standing n y j).mp hy
  obtain rfl : r = q := Option.some.inj (hr.symm.trans hq)
  exact Option.some.inj (hat.symm.trans hat')

theorem State.Custody.nodup_queued (hs : s.Custody) (n : LineNo) : (s.line n).queued.Nodup :=
  List.nodup_append.mpr ⟨hs.nodup n .urgent, hs.nodup n .normal, fun _ hj _ hk hsame =>
    absurd (hs.slot_unique (x := .urgent) (y := .normal) hj (hsame ▸ hk)) nofun⟩

theorem frame_enterDone_of_ne (how : DoneTally) (s : State) (i j : Nat) (hj : j ≠ i) : (enterDone how i s).frame j = s.frame j := by
  cases hr : s.frame i with
  | none =>
    have hsame : enterDone how i s = s := by simp only [enterDone, hr]
    rw [hsame]
  | some r =>
    rw [enterDone_of_frame how hr, State.frame_modLine, State.frame_putFrame_of_ne _ _ hj]
    rfl

theorem frame_flushQueued_of_ne (s : State) (i j : Nat) (hj : j ≠ i) : (flushQueued i s).frame j = s.frame j := by
  unfold flushQueued
  split
  · rfl
  · rw [frame_enterDone_of_ne _ _ _ _ hj, releaseChain_leaveQueue, State.frame_modLine, State.frame_putFrame_of_ne _ _ hj]
    rfl

theorem inOrder_finishDiscarding (n : LineNo) (hs : s.InOrder entries frames) : (finishDiscarding n s).InOrder entries frames := by
  have hnodup : (s.tags.map Prod.snd).Nodup := nodup_map_snd hs.custody.tagTable fun a b j ha hb => by
    obtain ⟨r, hr, -, rfl⟩ := (hs.custody.tags a j).mp ha
    obtain ⟨q, hq, -, rfl⟩ := (hs.custody.tags b j).mp hb
    rw [Option.some.inj (hr.symm.trans hq)]
  refine inOrder_foldl (P := fun r => r.state = .discarding) (fun ht hr hstate => inOrder_doneDiscarding ht hr hstate .flushed)
    (frame_enterDone_of_ne .flushed) (hnodup.filter _) (fun j hj => ?_) hs
  obtain ⟨-, r, -, hr, hstate, -⟩ := (mem_discardingOf hs.custody.tagTable).mp hj
  exact ⟨r, hr, hstate⟩

theorem inOrder_flushHandling (n : LineNo) (hs : s.InOrder entries frames) : (flushHandling n s).InOrder entries frames := by
  have hqueued : ((s.line n).queued.foldl (fun t i => flushQueued i t) s).InOrder entries frames :=
    inOrder_foldl (P := FrameRecord.waits) (fun ht hr hw => inOrder_flushQueued ht hr hw) frame_flushQueued_of_ne
      (hs.custody.nodup_queued n) (fun _ hj => hs.custody.waits_of_queued hj) hs
  have hdiscarding := inOrder_finishDiscarding n hqueued
  unfold flushHandling
  refine Stays.inOrder (Stays.modLine _ n fun x => by cases x <;> rfl) ?_
  split
  · exact hdiscarding
  · exact inOrder_failFrame .flushed _ hdiscarding

/-! ## The transmitter -/

theorem Line.standing_mute (l : Line) (x : Slot) : l.mute.standing x = l.standing x := by
  unfold Line.mute
  split
  · split <;> cases x <;> rfl
  · rfl

theorem waits_slot {r : FrameRecord} (hw : r.waits) : r.slot = some .urgent ∨ r.slot = some .normal := by
  rcases hw with hstate | hstate <;> cases hpriority : r.priority <;> simp [FrameRecord.slot, FrameState.slot, hstate, hpriority]

/-- A waiting frame leaves its queue for the free transmitter of its line (R55). -/
theorem inOrder_takeFrame (hs : s.InOrder entries frames) (hqueued : i ∈ (s.line n).queued) (hfree : (s.line n).tx.current = none) :
    (takeFrame n i s).InOrder entries frames := by
  obtain ⟨r, hr, hw⟩ := hs.custody.waits_of_queued hqueued
  have hline : r.line = n := by
    rcases List.mem_append.mp hqueued with hj | hj
    · obtain ⟨q, hq, hline, -⟩ := (hs.custody.standing n .urgent i).mp hj
      rwa [Option.some.inj (hr.symm.trans hq)]
    · obtain ⟨q, hq, hline, -⟩ := (hs.custody.standing n .normal i).mp hj
      rwa [Option.some.inj (hr.symm.trans hq)]
  have hfits := hs.custody.fits i r hr
  rw [takeFrame_eq, State.modFrame_of_frame hr]
  refine Rehomes.inOrder (i := i) (n := n) ?_ hs (hw.live.free hr)
  have hframe : State.frame ((s.putFrame i { r with state := .sending, sentCount := 0 }).modLine n (fun l => Line.mute (l.takes i))) i =
      some { r with state := .sending, sentCount := 0 } := State.frame_putFrame_self ..
  have hwas (x : Slot) : s.slotOf i = some x ↔ r.slot = some x := by simp only [State.slotOf, hr, Option.bind_some]
  have hnow (x : Slot) : State.slotOf ((s.putFrame i { r with state := .sending, sentCount := 0 }).modLine n
      (fun l => Line.mute (l.takes i))) i = some x ↔ x = .transmitter := by
    simp only [State.slotOf, hframe, Option.bind_some, FrameRecord.slot, FrameState.slot, Option.some.injEq]
    exact eq_comm
  have hnot {x : Slot} (hx : x ≠ .urgent ∧ x ≠ .normal) : ¬ r.slot = some x := by
    rcases waits_slot hw with hat | hat <;> rw [hat, Option.some.injEq]
    · exact hx.1.symm
    · exact hx.2.symm
  refine ⟨fun j hj => State.frame_putFrame_of_ne _ _ hj, fun p hp => by rwa [← Option.some.inj (hr.symm.trans hp)], fun q hq => ?_,
    fun m hm x => ?_, fun x => ?_, fun _ _ _ => .rfl, fun tag => ?_, .same rfl ?_, rfl, id⟩
  · rw [← Option.some.inj (hframe.symm.trans hq)]
    refine ⟨hline, ?_, nofun⟩
    show r.kind = .tx ↔ _
    rw [hfits.1]
    exact iff_of_true hw.live.1 (.inr (.inr (.inl rfl)))
  · rw [State.line_modLine_of_ne _ _ hm]
    rfl
  · have hlist : (State.line ((s.putFrame i { r with state := .sending, sentCount := 0 }).modLine n (fun l => Line.mute (l.takes i))) n).standing x =
        ((s.line n).takes i).standing x := by
      rw [State.line_modLine_self, Line.standing_mute]
      rfl
    cases x with
    | urgent => exact .left hlist (by rw [hnow]; nofun)
    | normal => exact .left hlist (by rw [hnow]; nofun)
    | transmitter =>
      refine .joined ?_ (by rw [hwas]; exact hnot ⟨nofun, nofun⟩) ((hnow _).mpr rfl)
      rw [hlist]
      simp [Line.standing, Line.takes, hfree]
    | receiver => exact .same hlist (by rw [hnow, hwas]; exact iff_of_false nofun (hnot ⟨nofun, nofun⟩))
    | received => exact .same hlist (by rw [hnow, hwas]; exact iff_of_false nofun (hnot ⟨nofun, nofun⟩))
  · show Table.get s.tags tag = some i ↔ _
    rw [hs.custody.tags, hr, hframe]
    simp only [Option.some.injEq, exists_eq_left']
    exact and_congr_left fun _ => iff_of_true hw.live ⟨.inr (.inr (.inl rfl)), nofun⟩
  · simp only [State.isDone, hr, hframe, Option.some.injEq, exists_eq_left']
    exact iff_of_false nofun hw.live.2

theorem inOrder_selectNext (atTick : Bool) (hplaced : (s.line n).placed) (hs : s.InOrder entries frames) :
    (selectNext atTick n s).InOrder entries frames := by
  by_cases hwaits : (s.line n).tx.state = .idle ∨ (s.line n).tx.state = .held
  · have henter (x : TxState) : (s.modLine n (Line.txEnter x)).InOrder entries frames :=
      Stays.inOrder (Stays.modLine _ n fun x => by cases x <;> rfl) hs
    cases hbreak : (s.line n).tx.pendingBreak with
    | some b =>
      rw [selectNext_of_break atTick hwaits hbreak]
      split
      · exact henter _
      · refine Stays.inOrder (Stays.modLine _ n fun x => ?_) hs
        rw [beginBreak, Line.standing_mute]
        cases x <;> rfl
    | none =>
      rw [selectNext_of_no_break atTick hwaits hbreak]
      cases hcandidate : candidateFrame s (s.line n) with
      | none => exact henter _
      | some i =>
        dsimp only [Option.elim_some]
        split
        · exact henter _
        · obtain ⟨-, hcurrent, -⟩ := hplaced
          have hfree : (s.line n).tx.current = none := by
            rw [← Option.not_isSome_iff_eq_none]
            exact fun hsome => TxState.not_holdsFrame_of_waits hwaits (hcurrent.mp hsome)
          exact inOrder_takeFrame hs (List.mem_append.mpr ((candidateFrame_eq_some_iff s _ i).mp hcandidate).mem) hfree
  · rwa [selectNext_of_other atTick (fun h => hwaits (.inl h)) (fun h => hwaits (.inr h))]

theorem Withdrawn.putFrame {r p q : FrameRecord} {u : State} (h : Withdrawn i r s u) (hp : u.frame i = some p) (hkind : q.kind = p.kind)
    (hstate : q.state = p.state) (hline : q.line = p.line) (htag : q.tag = p.tag) (hchain : q.chain = p.chain) :
    Withdrawn i r s (u.putFrame i q) := by
  obtain ⟨p', hp', hkind', hstate', hline', htag', hchain'⟩ := h.record
  obtain rfl : p = p' := Option.some.inj (hp.symm.trans hp')
  exact ⟨⟨q, State.frame_putFrame_self .., hkind.trans hkind', hstate.trans hstate', hline.trans hline', htag.trans htag',
    hchain.trans hchain'⟩, fun j hj => (State.frame_putFrame_of_ne _ _ hj).trans (h.frames j hj), h.others, h.left, h.stays, h.tags,
    h.completion, h.rejects⟩

/-- The transmitter gives up its frame for GAP. -/
def Line.gapBehind (l : Line) : Line :=
  { l with tx := { l.tx with current := none, octet := none, gapAfterBreak := false, state := .gap } }

theorem withdrawn_sending {r : FrameRecord} (hs : s.Custody) (hcurrent : (s.line n).tx.current = some i) (hr : s.frame i = some r) :
    r.line = n ∧ r.live ∧ Withdrawn i r s (releaseChain i (s.modLine n Line.gapBehind)) := by
  obtain ⟨q, hq, hline, hslot⟩ := (hs.standing n .transmitter i).mp (by simp [Line.standing, hcurrent])
  obtain rfl : r = q := Option.some.inj (hr.symm.trans hq)
  have hstate := (slot_transmitter_iff r).mp hslot
  have hframe : (s.modLine n Line.gapBehind).frame i = some r := hr
  refine ⟨hline, by simp [FrameRecord.live, FrameState.ofTx, hstate], ?_⟩
  rw [releaseChain_of_frame hframe]
  refine ⟨⟨_, State.frame_putFrame_self .., rfl, rfl, rfl, rfl, rfl⟩, fun j hj => State.frame_putFrame_of_ne _ _ hj, fun m hm x => ?_,
    fun x hx => ?_, fun x hx => ?_, rfl, rfl, rfl⟩
  · rw [hline] at hm
    rw [State.line_putFrame, ← State.line_modLine_of_ne s Line.gapBehind hm]
    rfl
  · obtain rfl : x = .transmitter := Option.some.inj (hx.symm.trans hslot)
    subst hline
    rw [State.line_putFrame]
    show ((s.modLine r.line Line.gapBehind).line r.line).standing _ = _
    rw [State.line_modLine_self]
    simp [Line.gapBehind, Line.standing, hcurrent]
  · subst hline
    rw [State.line_putFrame]
    show ((s.modLine r.line Line.gapBehind).line r.line).standing _ = _
    rw [State.line_modLine_self]
    cases x with
    | transmitter => exact absurd hslot hx
    | urgent | normal | receiver | received => rfl

theorem inOrder_endFrame (hcurrent : (s.line n).tx.current = some i) (hs : s.InOrder entries frames) :
    (endFrame n i s).InOrder entries frames := by
  obtain ⟨r, hr, -, -⟩ := (hs.custody.standing n .transmitter i).mp (by simp [Line.standing, hcurrent])
  obtain ⟨-, hlive, hwithdrawn⟩ := withdrawn_sending hs.custody hcurrent hr
  obtain ⟨q, hq, -⟩ := hwithdrawn.record
  have hcounted (m : LineNo) (f : LineCounters → LineCounters) {t : State} (ht : t.InOrder entries frames) :
      (t.modLine m (fun l => { l with counters := f l.counters })).InOrder entries frames :=
    Stays.inOrder (Stays.modLine t m fun x => by cases x <;> rfl) ht
  unfold endFrame
  dsimp only
  split
  next hnone => exact absurd (hq.symm.trans hnone) nofun
  next p hp =>
    split
    · exact hcounted p.line (fun c => { c with txFrames := satInc c.txFrames })
        ((hwithdrawn.putFrame (q := p.fixOutcome .ok) hp rfl rfl rfl rfl rfl).enterDone hs hr hlive _)
    · refine hcounted p.line (fun c => { c with txAborts := satInc c.txAborts }) ?_
      split
      · exact hwithdrawn.enterDone hs hr hlive _
      · exact hwithdrawn.enterDiscarding hs hr hlive

theorem inOrder_endLeadin (hcurrent : (s.line n).tx.current = some i) (hs : s.InOrder entries frames) :
    (endLeadin n i s).InOrder entries frames := by
  unfold endLeadin
  split
  · exact hs
  · split
    · exact inOrder_endFrame hcurrent hs
    · exact Stays.inOrder (Stays.modLine _ n fun x => by cases x <;> rfl) hs

theorem inOrder_octetBoundary (n : LineNo) (i : Nat) (hs : s.InOrder entries frames) : (octetBoundary n i s).InOrder entries frames := by
  have hcounted : (if (s.line n).tx.octet.isSome = true then s.modFrame i (fun r => { r with sentCount := r.sentCount + 1 })
      else s).InOrder entries frames := by
    split
    · exact (touches_modFrame (f := fun r => { r with sentCount := r.sentCount + 1 }) i s fun _ _ =>
        FrameRecord.alike_of_state rfl rfl rfl rfl rfl rfl fun _ => id).inOrder hs
    · exact hs
  unfold octetBoundary
  dsimp only
  generalize (if (s.line n).tx.octet.isSome = true then s.modFrame i (fun r => { r with sentCount := r.sentCount + 1 }) else s) = t
    at hcounted ⊢
  split
  · exact hs
  next r hr =>
    split_ifs
    · exact Stays.inOrder (Stays.modLine _ n fun x => by cases x <;> rfl) hcounted
    · exact Stays.inOrder (Stays.modLine _ n fun x => by cases x <;> rfl) hcounted
    · exact Stays.inOrder (Stays.modLine _ n fun x => by cases x <;> rfl) hcounted
    · exact Stays.inOrder (Stays.modLine _ n fun x => by cases x <;> rfl)
        ((touches_putFrame (q := r.fixOutcome .underrun) hr
          (FrameRecord.alike_of_state rfl rfl rfl rfl rfl rfl fun _ => id)).inOrder hcounted)

theorem Line.standing_enterListening (l : Line) (x : Slot) : l.enterListening.standing x = l.standing x := by
  cases x <;> rfl

theorem Line.standing_unmute (l : Line) (x : Slot) : l.unmute.standing x = l.standing x := by
  unfold Line.unmute
  split
  · exact l.standing_enterListening x
  · rfl

theorem inOrder_endGap (n : LineNo) (hs : s.InOrder entries frames) : (s.modLine n endGap).InOrder entries frames := by
  refine Stays.inOrder (Stays.modLine _ n fun x => ?_) hs
  have htx (k : Line) : Line.standing { k with tx := { k.tx with state := .idle, gapAfterBreak := false } } x = k.standing x := by
    cases x <;> rfl
  unfold endGap
  dsimp only
  rw [htx]
  split
  · exact Line.standing_unmute _ x
  · rfl

theorem inOrder_joinReply (r : Reply) (hs : s.InOrder entries frames) : (joinReply r s).InOrder entries frames :=
  Stays.inOrder {} hs

theorem inOrder_endBreak (n : LineNo) (status : ReplyStatus) (hs : s.InOrder entries frames) : (endBreak n status s).InOrder entries frames := by
  unfold endBreak
  split
  · exact hs
  · dsimp only
    refine inOrder_joinReply _ (Stays.inOrder (Stays.modLine _ n fun x => ?_) hs)
    split <;> cases x <;> rfl

/-! ## The judgments at the end of an event -/

theorem inOrder_judgeClosed (n : LineNo) (hs : s.InOrder entries frames) : (judgeClosed n s).InOrder entries frames := by
  unfold judgeClosed
  split
  · exact Stays.inOrder (Stays.modLine _ n fun x => by cases x <;> rfl) (inOrder_finishDiscarding n hs)
  · exact hs

theorem inOrder_judgeConditions (n : LineNo) (hs : s.InOrder entries frames) : (judgeConditions n s).InOrder entries frames := by
  refine Stays.inOrder (Stays.modLine _ n fun x => ?_) hs
  unfold Line.judgeConditions
  split
  · cases x <;> rfl
  · rfl

theorem inOrder_settleLine (atTick : Bool) (hplaced : (s.line n).placed) (hs : s.InOrder entries frames) :
    (settleLine atTick n s).InOrder entries frames :=
  inOrder_judgeConditions n (inOrder_judgeClosed n (inOrder_selectNext atTick hplaced hs))

end InOrder

end Sys2Proof.Machine

end

section
-- The proofs below are checked one after another: in parallel each waits for the others with a thread of its own.
set_option Elab.async false

/-! PROOFS. Received frames keep their custody: the beginning of a frame, its loss, its end, its place in the receive queue. -/

namespace Sys2Proof.Machine

section InOrder

variable {entries : List EntryRef} {frames : List Nat} {s : State} {n : LineNo} {i : Nat}

/-! ## Received frames change their place -/

/-- An RX record in a state of an RX record, of this line. -/
def FrameRecord.receivedBy (n : LineNo) (r : FrameRecord) : Prop := r.line = n ∧ r.kind = .rx ∧ ¬ r.state.ofTx

theorem FrameRecord.receivedBy.not_done {r : FrameRecord} (h : r.receivedBy n) : r.state ≠ .done :=
  fun hstate => h.2.2 (.inr (.inr (.inr (.inr hstate))))

theorem FrameRecord.receivedBy.fits {r : FrameRecord} (h : r.receivedBy n) : r.Fits :=
  ⟨iff_of_false (by rw [h.2.1]; nofun) h.2.2, fun hat => absurd (hat.elim (fun h => .inr (.inr (.inr (.inl h))))
    fun h => .inr (.inr (.inr (.inr h)))) h.2.2⟩

/-- An RX record, or a free one, becomes an RX record or free; the tags and the Completion List are not about it. -/
theorem rehomes_received {t : State} (hs : s.Custody) (hframes : ∀ j, j ≠ i → t.frame j = s.frame j)
    (hold : ∀ r, s.frame i = some r → r.receivedBy n) (hnew : ∀ q, t.frame i = some q → q.receivedBy n)
    (hothers : ∀ m, m ≠ n → ∀ x, (t.line m).standing x = (s.line m).standing x)
    (hown : ∀ x, Change i (s.slotOf i = some x) (t.slotOf i = some x) ((s.line n).standing x) ((t.line n).standing x))
    (htags : t.tags = s.tags) (hcompletion : t.completion = s.completion) (hrejects : t.rejects = s.rejects) : Rehomes i n s t where
  frames := hframes
  old r hr := (hold r hr).1
  new q hq := ⟨(hnew q hq).1, (hnew q hq).fits⟩
  others := hothers
  own := hown
  tagsOther tag j _ := by rw [htags]
  tagsOwn tag := by
    rw [htags, hs.tags]
    exact iff_of_false (fun ⟨r, hr, hlive, _⟩ => (hold r hr).2.2 hlive.1) fun ⟨q, hq, hlive, _⟩ => (hnew q hq).2.2 hlive.1
  done := .same hcompletion (iff_of_false (fun ⟨q, hq, hdone⟩ => (hnew q hq).not_done hdone)
    fun ⟨r, hr, hdone⟩ => (hold r hr).not_done hdone)
  rejects := hrejects
  tagTable := by rw [htags]; exact id

/-- A record that stands in the receiver or in the receive queue is of that line and kind. -/
theorem State.Custody.receivedBy {x : Slot} (hs : s.Custody) (hx : x = .receiver ∨ x = .received) (hi : i ∈ (s.line n).standing x) :
    ∃ r, s.frame i = some r ∧ r.slot = some x ∧ r.receivedBy n := by
  obtain ⟨r, hr, hline, hslot⟩ := (hs.standing n x i).mp hi
  have hrx : ¬ r.state.ofTx := by
    rcases hx with rfl | rfl
    · rw [slot_receiver_iff] at hslot
      simp [hslot]
    · rw [slot_received_iff] at hslot
      rcases hslot with hslot | hslot | hslot <;> simp [hslot]
  refine ⟨r, hr, hslot, hline, ?_, hrx⟩
  have hkind := (hs.fits i r hr).1
  cases hk : r.kind with
  | tx => exact absurd (hkind.mp hk) hrx
  | rx => rfl

/-- A record leaves the one list in which it stands and is free. -/
theorem rehomes_released {x : Slot} {r : FrameRecord} {t : State} (hs : s.Custody) (hr : s.frame i = some r)
    (hslot : r.slot = some x) (hrx : r.receivedBy n) (hframes : ∀ j, t.frame j = if j = i then none else s.frame j)
    (hothers : ∀ m, m ≠ n → ∀ y, (t.line m).standing y = (s.line m).standing y)
    (hleft : (t.line n).standing x = ((s.line n).standing x).filter (· ≠ i))
    (hstays : ∀ y, y ≠ x → (t.line n).standing y = (s.line n).standing y)
    (htags : t.tags = s.tags) (hcompletion : t.completion = s.completion) (hrejects : t.rejects = s.rejects) : Rehomes i n s t := by
  have hfree : t.frame i = none := (hframes i).trans (if_pos rfl)
  refine rehomes_received hs (fun j hj => (hframes j).trans (if_neg hj))
    (fun p hp => by rwa [← Option.some.inj (hr.symm.trans hp)]) (fun q hq => by rw [hfree] at hq; cases hq) hothers (fun y => ?_)
    htags hcompletion hrejects
  have hnow : ¬ t.slotOf i = some y := by simp [State.slotOf, hfree]
  by_cases hy : y = x
  · rw [hy]
    rw [hy] at hnow
    exact .left hleft hnow
  · refine .same (hstays y hy) (iff_of_false hnow ?_)
    simp only [State.slotOf, hr, Option.bind_some, hslot, Option.some.injEq]
    exact fun hsame => hy hsame.symm

theorem inOrder_released {x : Slot} {r : FrameRecord} {t : State} (hs : s.InOrder entries frames) (hr : s.frame i = some r)
    (hslot : r.slot = some x) (hrx : r.receivedBy n) (hnotSent : r.state ≠ .sent)
    (hframes : ∀ j, t.frame j = if j = i then none else s.frame j)
    (hothers : ∀ m, m ≠ n → ∀ y, (t.line m).standing y = (s.line m).standing y)
    (hleft : (t.line n).standing x = ((s.line n).standing x).filter (· ≠ i))
    (hstays : ∀ y, y ≠ x → (t.line n).standing y = (s.line n).standing y)
    (htags : t.tags = s.tags) (hcompletion : t.completion = s.completion) (hrejects : t.rejects = s.rejects) : t.InOrder entries frames :=
  (rehomes_released hs.custody hr hslot hrx hframes hothers hleft hstays htags hcompletion hrejects).inOrder hs fun p hp => by
    rw [← Option.some.inj (hr.symm.trans hp)]
    exact ⟨hrx.not_done, hnotSent⟩

/-! ## Assembly -/

/-- The receiver of a line gives up its record, and the other lists stay. -/
def Line.LetsGo (l k : Line) : Prop := k.standing .receiver = [] ∧ ∀ x, x ≠ .receiver → k.standing x = l.standing x

theorem Line.letsGo_leaveAssembling (y : RxState) (l : Line) : l.LetsGo (l.leaveAssembling y) := by
  unfold Line.leaveAssembling
  dsimp only
  refine ⟨?_, fun x hx => ?_⟩
  · split <;> rfl
  · cases x with
    | receiver => exact absurd rfl hx
    | urgent | normal | transmitter | received => split <;> rfl

theorem Line.LetsGo.stays {l k : Line} (h : l.LetsGo k) (hnone : l.rx.current = none) (x : Slot) : k.standing x = l.standing x := by
  by_cases hx : x = .receiver
  · rw [hx, h.1]
    simp [Line.standing, hnone]
  · exact h.2 x hx

theorem line_freeFrame (i : Nat) (s : State) (m : LineNo) : (freeFrame i s).line m = s.line m := by
  rw [freeFrame_eq]
  rfl

theorem inOrder_countRxError (n : LineNo) (hs : s.InOrder entries frames) : (countRxError n s).InOrder entries frames :=
  Stays.inOrder (Stays.modLine s n fun x => by cases x <;> rfl) hs

theorem inOrder_countRxFrame (n : LineNo) (hs : s.InOrder entries frames) : (countRxFrame n s).InOrder entries frames :=
  Stays.inOrder (Stays.modLine s n fun x => by cases x <;> rfl) hs

theorem inOrder_countRxLost (n : LineNo) (hs : s.InOrder entries frames) : (countRxLost n s).InOrder entries frames :=
  Stays.inOrder (Stays.modLine s n fun x => by cases x <;> rfl) hs

theorem inOrder_loseFrame (n : LineNo) (hs : s.InOrder entries frames) : (loseFrame n s).InOrder entries frames :=
  Stays.inOrder (Stays.modLine _ n fun x => by cases x <;> rfl) (inOrder_countRxLost n hs)

theorem inOrder_discardAssembly (n : LineNo) (y : RxState) (hs : s.InOrder entries frames) : (discardAssembly n y s).InOrder entries frames := by
  unfold discardAssembly
  split
  next hnone =>
    exact Stays.inOrder (Stays.modLine _ n ((Line.letsGo_leaveAssembling y _).stays hnone)) hs
  next i hi =>
    obtain ⟨r, hr, hslot, hrx⟩ := hs.custody.receivedBy (n := n) (i := i) (.inl rfl) (by simp [Line.standing, hi])
    have hstate := (slot_receiver_iff r).mp hslot
    refine inOrder_released hs hr hslot hrx (by simp [hstate]) (fun j => frame_freeFrame i j s) (fun m hm x => ?_) ?_ (fun x hx => ?_)
      (by rw [freeFrame_eq]; rfl) (by rw [freeFrame_eq]; rfl) (by rw [freeFrame_eq]; rfl)
    · rw [State.line_modLine_of_ne _ _ hm, line_freeFrame]
    · rw [State.line_modLine_self, (Line.letsGo_leaveAssembling y _).1]
      simp [Line.standing, hi]
    · rw [State.line_modLine_self, (Line.letsGo_leaveAssembling y _).2 x hx, line_freeFrame]

theorem inOrder_beginFrame (length : Nat) (header : List Byte) (hplaced : (s.line n).placed) (hnot : (s.line n).rx.state ≠ .assembling)
    (hs : s.InOrder entries frames) : (beginFrame n length header s).InOrder entries frames := by
  cases hclaim : claimRecord .rx s with
  | none =>
    rw [beginFrame_of_no_record n length header hclaim]
    exact Stays.inOrder (Stays.modLine _ n fun x => by cases x <;> rfl) hs
  | some i =>
    obtain ⟨-, -, -, hassembly, -⟩ := hplaced
    have hcurrent : (s.line n).rx.current = none := by
      rw [← Option.not_isSome_iff_eq_none]
      exact fun hsome => hnot (hassembly.mp hsome)
    have hfree : s.frame i = none := frame_of_claimRecord hclaim
    rw [beginFrame_of_record n length header hclaim]
    have hframe (f : Line → Line) : ((s.putFrame i { kind := .rx, state := .assembling, line := n }).modLine n f).frame i =
        some { kind := .rx, state := .assembling, line := n } := State.frame_putFrame_self ..
    refine Rehomes.inOrder (i := i) (n := n) ?_ hs fun p hp => (by rw [hfree] at hp; cases hp)
    refine rehomes_received hs.custody (fun j hj => State.frame_putFrame_of_ne _ _ hj)
      (fun p hp => by rw [hfree] at hp; cases hp) (fun q hq => ?_) (fun m hm x => ?_) (fun x => ?_) rfl rfl rfl
    · rw [← Option.some.inj ((hframe _).symm.trans hq)]
      exact ⟨rfl, rfl, by simp⟩
    · rw [State.line_modLine_of_ne _ _ hm]
      rfl
    · have hwas : ¬ s.slotOf i = some x := by simp [State.slotOf, hfree]
      rw [State.line_modLine_self]
      cases x with
      | receiver =>
        refine .joined ?_ hwas ?_
        · simp [Line.standing, hcurrent]
        · rw [State.slotOf, hframe]
          rfl
      | urgent | normal | transmitter | received =>
        refine .same rfl (iff_of_false ?_ hwas)
        rw [State.slotOf, hframe]
        nofun

/-! ## The end of a frame in assembly -/

/-- Record i of line n, in assembly, has left the receiver and stands nowhere yet; all else is as in s. -/
structure Ended (n : LineNo) (i : Nat) (s u : State) : Prop where
  was : ∃ r, s.frame i = some r ∧ r.slot = some .receiver ∧ r.receivedBy n
  record : ∃ q, u.frame i = some q ∧ q.line = n ∧ q.kind = .rx
  frames : ∀ j, j ≠ i → u.frame j = s.frame j
  others : ∀ m, m ≠ n → ∀ x, (u.line m).standing x = (s.line m).standing x
  left : (u.line n).standing .receiver = ((s.line n).standing .receiver).filter (· ≠ i)
  stays : ∀ x, x ≠ .receiver → (u.line n).standing x = (s.line n).standing x
  tags : u.tags = s.tags
  completion : u.completion = s.completion
  rejects : u.rejects = s.rejects

namespace Ended

variable {u : State}

theorem not_sent (h : Ended n i s u) {r : FrameRecord} (hr : s.frame i = some r) : r.state ≠ .done ∧ r.state ≠ .sent := by
  obtain ⟨q, hq, hslot, -⟩ := h.was
  rw [Option.some.inj (hr.symm.trans hq), (slot_receiver_iff q).mp hslot]
  exact ⟨nofun, nofun⟩

theorem modLine (h : Ended n i s u) {f : Line → Line} (hf : ∀ x, (f (u.line n)).standing x = (u.line n).standing x) :
    Ended n i s (u.modLine n f) :=
  ⟨h.was, h.record, h.frames, fun m hm x => by rw [State.line_modLine_of_ne _ _ hm]; exact h.others m hm x,
    by rw [State.line_modLine_self, hf]; exact h.left, fun x hx => by rw [State.line_modLine_self, hf]; exact h.stays x hx, h.tags,
    h.completion, h.rejects⟩

theorem putFrame (h : Ended n i s u) {q : FrameRecord} (hq : q.line = n ∧ q.kind = .rx) : Ended n i s (u.putFrame i q) :=
  ⟨h.was, ⟨q, State.frame_putFrame_self .., hq⟩, fun j hj => (State.frame_putFrame_of_ne _ _ hj).trans (h.frames j hj), h.others, h.left,
    h.stays, h.tags, h.completion, h.rejects⟩

theorem fixed (h : Ended n i s u) (o : FrameOutcome) : Ended n i s (u.modFrame i (fun r => r.fixOutcome o)) := by
  obtain ⟨q, hq, hline, hkind⟩ := h.record
  rw [State.modFrame_of_frame hq]
  exact h.putFrame ⟨hline, hkind⟩

theorem trimmed (h : Ended n i s u) : Ended n i s (trimFrame i u) := by
  obtain ⟨q, hq, hline, hkind⟩ := h.record
  rw [trimFrame_of_frame hq]
  have hpool : Ended n i s { u with store := { u.store with freeCells := u.store.freeCells ++ (trimmedChain q.chain).2 } } :=
    ⟨h.was, h.record, h.frames, h.others, h.left, h.stays, h.tags, h.completion, h.rejects⟩
  exact hpool.putFrame ⟨hline, hkind⟩

theorem inOrder_freeFrame (h : Ended n i s u) (hs : s.InOrder entries frames) : (freeFrame i u).InOrder entries frames := by
  obtain ⟨r, hr, hslot, hrx⟩ := h.was
  refine inOrder_released hs hr hslot hrx (h.not_sent hr).2 (fun j => ?_) (fun m hm x => ?_) ?_ (fun x hx => ?_)
    (by rw [freeFrame_eq]; exact h.tags) (by rw [freeFrame_eq]; exact h.completion) (by rw [freeFrame_eq]; exact h.rejects)
  · rw [frame_freeFrame]
    split
    · rfl
    next hj => exact h.frames j hj
  · rw [line_freeFrame]
    exact h.others m hm x
  · rw [line_freeFrame]
    exact h.left
  · rw [line_freeFrame]
    exact h.stays x hx

/-- The frame joins the tail of the receive queue. -/
theorem inOrder_queued (h : Ended n i s u) (number : Nat) (loss : Bool) (hs : s.InOrder entries frames) :
    ((u.modFrame i (fun r => { r with state := .queued, number := number, lossMark := loss })).modLine n
      (fun l => { l with rx := { l.rx with queue := l.rx.queue ++ [i] } })).InOrder entries frames := by
  obtain ⟨r, hr, hslot, hrx⟩ := h.was
  obtain ⟨q, hq, hline, hkind⟩ := h.record
  rw [State.modFrame_of_frame hq]
  have hframe (f : Line → Line) : ((u.putFrame i { q with state := .queued, number := number, lossMark := loss }).modLine n f).frame i =
      some { q with state := .queued, number := number, lossMark := loss } := State.frame_putFrame_self ..
  refine Rehomes.inOrder (i := i) (n := n) ?_ hs fun p hp => h.not_sent hp
  refine rehomes_received hs.custody (fun j hj => (State.frame_putFrame_of_ne _ _ hj).trans (h.frames j hj))
    (fun p hp => by rwa [← Option.some.inj (hr.symm.trans hp)]) (fun p hp => ?_) (fun m hm x => ?_) (fun x => ?_) h.tags h.completion
    h.rejects
  · rw [← Option.some.inj ((hframe _).symm.trans hp)]
    exact ⟨hline, hkind, by simp⟩
  · rw [State.line_modLine_of_ne _ _ hm]
    exact h.others m hm x
  · have hwas : s.slotOf i = some x ↔ some Slot.receiver = some x := by simp only [State.slotOf, hr, Option.bind_some, hslot]
    rw [hwas, State.slotOf, hframe, State.line_modLine_self]
    have hstays := h.stays x
    cases x with
    | receiver => exact .left h.left nofun
    | received =>
      refine .joined ?_ nofun rfl
      rw [← hstays nofun]
      rfl
    | urgent | normal | transmitter => exact .same (hstays nofun) (iff_of_false nofun nofun)

end Ended

/-- The tail of a full receive queue gives way: its record is free. -/
def dropTail (n : LineNo) (j : Nat) (s : State) : State :=
  (freeFrame j s).modLine n (fun l => { l with rx := { l.rx with queue := l.rx.queue.dropLast } })

theorem frame_dropTail (n : LineNo) (j : Nat) (s : State) (k : Nat) : (dropTail n j s).frame k = if k = j then none else s.frame k :=
  frame_freeFrame j k s

theorem standing_dropTail (n : LineNo) (j : Nat) (s : State) : ((dropTail n j s).line n).standing .received = ((s.line n).standing .received).dropLast ∧
    (∀ x, x ≠ .received → ((dropTail n j s).line n).standing x = (s.line n).standing x) ∧
      ∀ m, m ≠ n → ∀ x, ((dropTail n j s).line m).standing x = (s.line m).standing x := by
  refine ⟨?_, fun x hx => ?_, fun m hm x => ?_⟩
  · rw [dropTail, State.line_modLine_self, line_freeFrame]
    rfl
  · rw [dropTail, State.line_modLine_self, line_freeFrame]
    cases x with
    | received => exact absurd rfl hx
    | urgent | normal | transmitter | receiver => rfl
  · rw [dropTail, State.line_modLine_of_ne _ _ hm, line_freeFrame]

theorem dropTail_eq (n : LineNo) (j : Nat) (s : State) :
    (dropTail n j s).tags = s.tags ∧ (dropTail n j s).completion = s.completion ∧ (dropTail n j s).rejects = s.rejects := by
  rw [dropTail, freeFrame_eq]
  exact ⟨rfl, rfl, rfl⟩

theorem dropLast_eq_filter {queue : List Nat} {j : Nat} (hnodup : queue.Nodup) (htail : queue.getLast? = some j) :
    queue.dropLast = queue.filter (· ≠ j) := by
  obtain ⟨init, rfl⟩ := List.getLast?_eq_some_iff.mp htail
  obtain ⟨-, -, hdisjoint⟩ := List.nodup_append.mp hnodup
  rw [List.dropLast_concat, List.filter_append, List.filter_singleton, decide_eq_false (not_not.mpr rfl), cond_false, List.append_nil]
  exact (List.filter_eq_self.mpr fun k hk => decide_eq_true (hdisjoint k hk j (List.mem_singleton_self j))).symm

theorem inOrder_dropTail {j : Nat} (htail : (s.line n).rx.queue.getLast? = some j)
    (hbegun : (s.frame j).elim true FrameRecord.deliveryBegun = false) (hs : s.InOrder entries frames) : (dropTail n j s).InOrder entries frames := by
  obtain ⟨r, hr, hslot, hrx⟩ := hs.custody.receivedBy (n := n) (x := .received) (.inr rfl) (List.mem_of_getLast? htail)
  obtain ⟨htags, hcompletion, hrejects⟩ := dropTail_eq n j s
  obtain ⟨hqueue, hstays, hothers⟩ := standing_dropTail n j s
  refine inOrder_released hs hr hslot hrx (fun hsent => ?_) (frame_dropTail n j s) hothers
    (hqueue.trans (dropLast_eq_filter (hs.custody.nodup n .received) htail)) hstays htags hcompletion hrejects
  simp [hr, FrameRecord.deliveryBegun, hsent] at hbegun

theorem Ended.dropTail {j : Nat} {u : State} (h : Ended n i s u) (hj : i ≠ j) : Ended n i (dropTail n j s) (dropTail n j u) := by
  obtain ⟨r, hr, hslot, hrx⟩ := h.was
  obtain ⟨q, hq, hrecord⟩ := h.record
  obtain ⟨htags, hcompletion, hrejects⟩ := dropTail_eq n j s
  obtain ⟨hqueue, hstays, hothers⟩ := standing_dropTail n j s
  obtain ⟨htags', hcompletion', hrejects'⟩ := dropTail_eq n j u
  obtain ⟨hqueue', hstays', hothers'⟩ := standing_dropTail n j u
  refine ⟨⟨r, by rw [frame_dropTail, if_neg hj, hr], hslot, hrx⟩, ⟨q, by rw [frame_dropTail, if_neg hj, hq], hrecord⟩, fun k hk => ?_,
    fun m hm x => by rw [hothers' m hm, hothers m hm, h.others m hm], by rw [hstays' .receiver nofun, hstays .receiver nofun, h.left], fun x hx => ?_,
    by rw [htags', htags, h.tags], by rw [hcompletion', hcompletion, h.completion], by rw [hrejects', hrejects, h.rejects]⟩
  · rw [frame_dropTail, frame_dropTail, h.frames k hk]
  · by_cases hat : x = .received
    · rw [hat, hqueue', hqueue, h.stays .received nofun]
    · rw [hstays' x hat, hstays x hat, h.stays x hx]

theorem Ended.inOrder_placeFrame {u : State} (h : Ended n i s u) (hs : s.InOrder entries frames) : (placeFrame n i u).InOrder entries frames := by
  have hnumbered : Ended n i s (u.modLine n (fun l =>
      { l with rx := { l.rx with nextNumber := (l.rx.nextNumber + 1) % 65536, pendingLoss := false } })) :=
    h.modLine fun x => by cases x <;> rfl
  have hlost := inOrder_loseFrame n (hnumbered.inOrder_freeFrame hs)
  unfold placeFrame
  dsimp only
  split
  · exact inOrder_countRxFrame n (hnumbered.inOrder_queued _ _ hs)
  · split
    · exact hlost
    next j htail =>
      split
      · exact hlost
      next hbegun =>
        have hqueue : (s.line n).rx.queue = (u.line n).rx.queue := (h.stays .received nofun).symm
        rw [← hqueue] at htail
        obtain ⟨r, hr, hslot, -⟩ := h.was
        have hne : i ≠ j := by
          rintro rfl
          obtain ⟨q, hq, hslot', -⟩ := hs.custody.receivedBy (n := n) (x := .received) (.inr rfl) (List.mem_of_getLast? htail)
          rw [Option.some.inj (hr.symm.trans hq), hslot'] at hslot
          cases hslot
        rw [h.frames j hne.symm, Bool.not_eq_true] at hbegun
        exact inOrder_countRxLost n (inOrder_countRxFrame n
          ((hnumbered.dropTail hne).inOrder_queued _ _ (inOrder_dropTail htail hbegun hs)))

theorem Ended.inOrder_disposeFrame {u : State} (h : Ended n i s u) (o : FrameOutcome) (trim : Bool) (hs : s.InOrder entries frames) :
    (disposeFrame n i o trim u).InOrder entries frames := by
  unfold disposeFrame
  dsimp only
  split
  · refine Ended.inOrder_placeFrame (s := s) ?_ hs
    split
    · exact (h.fixed o).trimmed
    · exact h.fixed o
  · exact inOrder_countRxError n (h.inOrder_freeFrame hs)

theorem ended_left {f : Line → Line} (hs : s.Custody) (hcurrent : (s.line n).rx.current = some i) (hf : (s.line n).LetsGo (f (s.line n))) :
    Ended n i s (s.modLine n f) := by
  obtain ⟨r, hr, hslot, hrx⟩ := hs.receivedBy (n := n) (i := i) (.inl rfl) (by simp [Line.standing, hcurrent])
  refine ⟨⟨r, hr, hslot, hrx⟩, ⟨r, hr, hrx.1, hrx.2.1⟩, fun _ _ => rfl, fun m hm x => by rw [State.line_modLine_of_ne _ _ hm], ?_,
    fun x hx => by rw [State.line_modLine_self, hf.2 x hx], rfl, rfl, rfl⟩
  rw [State.line_modLine_self, hf.1]
  simp [Line.standing, hcurrent]

theorem inOrder_endGapFrame (n : LineNo) (hs : s.InOrder entries frames) : (endGapFrame n s).InOrder entries frames := by
  have hleft := Line.letsGo_leaveAssembling .idle (s.line n)
  unfold endGapFrame
  dsimp only
  split
  next hnone => exact Stays.inOrder (Stays.modLine _ n (hleft.stays hnone)) hs
  next i hi =>
    have hended := ended_left hs.custody hi hleft
    split
    · exact inOrder_countRxError n (hended.inOrder_freeFrame hs)
    · exact hended.inOrder_disposeFrame _ _ hs

/-- The receiver after the end of a sync frame (R83). -/
def Line.endsSync (l : Line) : Line :=
  { l.leaveAssembling .synced with rx := { (l.leaveAssembling .synced).rx with patternRequired := true, toCome := 0 } }

theorem Line.letsGo_endsSync (l : Line) : l.LetsGo l.endsSync := by
  obtain ⟨hreceiver, hothers⟩ := Line.letsGo_leaveAssembling .synced l
  refine ⟨hreceiver, fun x hx => ?_⟩
  rw [← hothers x hx]
  cases x <;> rfl

theorem inOrder_endSyncFrame (n : LineNo) (b : Byte) (hs : s.InOrder entries frames) : (endSyncFrame n b s).InOrder entries frames := by
  have hleft := Line.letsGo_endsSync (s.line n)
  unfold endSyncFrame
  dsimp only
  split
  next hnone => exact Stays.inOrder (Stays.modLine _ n (hleft.stays hnone)) hs
  next i hi => exact (ended_left hs.custody hi hleft).inOrder_disposeFrame _ _ hs

/-! ## The receiver's events -/

theorem holdsCells_of_current (hs : s.Custody) (hcurrent : (s.line n).rx.current = some i) (r : FrameRecord) (hr : s.frame i = some r) :
    r.holdsCells := by
  obtain ⟨q, hq, -, hrx⟩ := hs.receivedBy (n := n) (i := i) (.inl rfl) (by simp [Line.standing, hcurrent])
  rw [Option.some.inj (hr.symm.trans hq)]
  exact fun hat => hrx.2.2 (hat.elim (fun h => .inr (.inr (.inr (.inl h)))) fun h => .inr (.inr (.inr (.inr h))))

theorem inOrder_assembleCharacter (n : LineNo) (c : ReceivedCharacter) (hs : s.InOrder entries frames) :
    (assembleCharacter n c s).InOrder entries frames := by
  have hcounted : (s.modLine n (fun l => { l with rx := { l.rx with count := l.rx.count + 1 } })).InOrder entries frames :=
    Stays.inOrder (Stays.modLine _ n fun x => by cases x <;> rfl) hs
  unfold assembleCharacter
  dsimp only
  split
  · exact hcounted
  next i hi =>
    have hopen (r : FrameRecord) (hr : s.frame i = some r) : r.holdsCells := holdsCells_of_current hs.custody hi r hr
    split
    · exact inOrder_countRxError n (inOrder_discardAssembly n .discard hcounted)
    · split
      · exact inOrder_loseFrame n (inOrder_discardAssembly n .discard hcounted)
      next happend =>
        exact Stays.inOrder (Stays.modLine _ n fun x => by cases x <;> rfl) ((touches_appendOctet happend hopen).inOrder hcounted)

theorem inOrder_assembleSyncOctet (n : LineNo) (b : Byte) (hs : s.InOrder entries frames) :
    (assembleSyncOctet n b s).InOrder entries frames := by
  have hcounted : (s.modLine n (fun l =>
      { l with rx := { l.rx with count := l.rx.count + 1, toCome := l.rx.toCome - 1 } })).InOrder entries frames :=
    Stays.inOrder (Stays.modLine _ n fun x => by cases x <;> rfl) hs
  unfold assembleSyncOctet
  dsimp only
  split
  · split
    · exact hcounted
    next i hi =>
      split
      · exact inOrder_loseFrame n (inOrder_discardAssembly n .discard hcounted)
      next happend =>
        exact Stays.inOrder (Stays.modLine _ n fun x => by cases x <;> rfl)
          ((touches_appendOctet happend (holdsCells_of_current (s := s) hs.custody hi)).inOrder hcounted)
  · split
    · exact Stays.inOrder (Stays.modLine _ n fun x => by cases x <;> rfl) hcounted
    · exact inOrder_endSyncFrame n b hcounted

theorem inOrder_takePair (high low : Byte) (hplaced : (s.line n).placed) (hstate : (s.line n).rx.state = .synced)
    (hs : s.InOrder entries frames) : (takePair n high low s).InOrder entries frames := by
  unfold takePair
  dsimp only
  split
  · exact hs
  · split_ifs
    · exact Stays.inOrder (Stays.modLine _ n fun x => by cases x <;> rfl) hs
    · exact Stays.inOrder (Stays.modLine _ n fun x => by cases x <;> rfl) hs
    · exact inOrder_beginFrame _ _ hplaced (by simp [hstate]) hs
    · exact inOrder_countRxError n (Stays.inOrder (Stays.modLine _ n fun x => by cases x <;> rfl) hs)

theorem inOrder_gateReceiver (n : LineNo) (hs : s.InOrder entries frames) : (gateReceiver n s).InOrder entries frames := by
  have hgated : (s.modLine n (fun l => { l with rx := { l.rx.enter .gated with toCome := 0 } })).InOrder entries frames :=
    Stays.inOrder (Stays.modLine _ n fun x => by cases x <;> rfl) hs
  unfold gateReceiver
  cases (s.line n).rx.state
  case assembling => exact inOrder_countRxError n (inOrder_discardAssembly n .gated hs)
  case off | gated | muted => exact hs
  case idle | discard | breaking | seek | synced => exact hgated

theorem inOrder_detectBreak (n : LineNo) (hs : s.InOrder entries frames) : (detectBreak n s).InOrder entries frames := by
  have hbreak : (s.modLine n (fun l => { l with rx := l.rx.enter .breaking })).InOrder entries frames :=
    Stays.inOrder (Stays.modLine _ n fun x => by cases x <;> rfl) hs
  have hdiscard := inOrder_discardAssembly n .breaking hs
  unfold detectBreak
  cases (s.line n).rx.state
  case assembling =>
    dsimp only
    split
    · exact inOrder_countRxError n hdiscard
    · exact hdiscard
  case idle | discard => exact hbreak
  case off | gated | muted | breaking | seek | synced => exact hs

theorem inOrder_seekReceiver (n : LineNo) (hs : s.InOrder entries frames) : (seekReceiver n s).InOrder entries frames := by
  have hseek : (s.modLine n (fun l => { l with rx := { l.rx.enter .seek with toCome := 0 } })).InOrder entries frames :=
    Stays.inOrder (Stays.modLine _ n fun x => by cases x <;> rfl) hs
  unfold seekReceiver
  cases (s.line n).rx.state
  case assembling => exact inOrder_countRxError n (inOrder_discardAssembly n .seek hs)
  case synced | discard => exact hseek
  case off | gated | muted | breaking | seek | idle => exact hs

theorem inOrder_closeReceiver (n : LineNo) (hs : s.InOrder entries frames) : (closeReceiver n s).InOrder entries frames := by
  unfold closeReceiver
  split
  · exact inOrder_countRxError n (inOrder_discardAssembly n .off hs)
  · exact Stays.inOrder (Stays.modLine _ n fun x => by cases x <;> rfl) hs

theorem inOrder_carrierEffect (n : LineNo) (high : Bool) (hs : s.InOrder entries frames) : (carrierEffect n high s).InOrder entries frames := by
  unfold carrierEffect
  split
  · split
    · refine Stays.inOrder (Stays.modLine _ n fun x => ?_) hs
      split
      · exact Line.standing_enterListening _ x
      · rfl
    · exact inOrder_gateReceiver n hs
  · exact hs

theorem inOrder_readTo (n : LineNo) (p : CharacterPhase) (hs : s.InOrder entries frames) : (s.modLine n (Line.readTo p)).InOrder entries frames :=
  Stays.inOrder (Stays.modLine _ n fun x => by cases x <;> rfl) hs

theorem inOrder_startCharacter (hplaced : (s.line n).placed) (hs : s.InOrder entries frames) :
    (startCharacter n s).InOrder entries frames := by
  unfold startCharacter
  refine inOrder_readTo n .inProgress ?_
  split
  next hidle => exact inOrder_beginFrame 0 [] hplaced (by simp [hidle]) hs
  · exact hs

theorem inOrder_completeCharacter (n : LineNo) (data : OctetBits) (parityBit stopBit : Bool) (hs : s.InOrder entries frames) :
    (completeCharacter n data parityBit stopBit s).InOrder entries frames := by
  unfold completeCharacter
  refine inOrder_readTo n _ ?_
  split
  · exact inOrder_assembleCharacter n _ hs
  · exact hs

theorem inOrder_takeGap (n : LineNo) (hs : s.InOrder entries frames) : (takeGap n s).InOrder entries frames := by
  unfold takeGap
  split
  · exact inOrder_endGapFrame n hs
  · exact Stays.inOrder (Stays.modLine _ n fun x => by cases x <;> rfl) hs

theorem inOrder_returnToMarking (n : LineNo) (hs : s.InOrder entries frames) : (returnToMarking n s).InOrder entries frames := by
  unfold returnToMarking
  split
  · exact Stays.inOrder (Stays.modLine _ n fun x => by cases x <;> rfl) hs
  · exact inOrder_readTo n .waiting hs

theorem inOrder_takeSyncOctet (n : LineNo) (b : Byte) (hs : s.InOrder entries frames) : (takeSyncOctet n b s).InOrder entries frames := by
  unfold takeSyncOctet
  split
  · exact inOrder_assembleSyncOctet n b hs
  · refine Stays.inOrder (Stays.modLine _ n fun x => ?_) hs
    split <;> cases x <;> rfl

/-! ## The events of a line -/

theorem LineEffect.inOrder {t : State} {atTick : Bool} (h : LineEffect n atTick s t) (hplaced : (s.line n).placed)
    (hs : s.InOrder entries frames) : t.InOrder entries frames := by
  have hstays (f : Line → Line) (hf : ∀ x, (f (s.line n)).standing x = (s.line n).standing x) : (s.modLine n f).InOrder entries frames :=
    Stays.inOrder (Stays.modLine s n hf) hs
  cases h with
  | none => exact hs
  | leadinEnd _ hcurrent => exact inOrder_endLeadin hcurrent hs
  | octetBoundary => exact inOrder_octetBoundary n _ hs
  | frameEnd _ hcurrent => exact inOrder_endFrame hcurrent hs
  | gapEnd => exact inOrder_endGap n hs
  | breakEnd => exact inOrder_endBreak n .ok hs
  | turnaroundEnd => exact hstays _ fun x => by cases x <;> rfl
  | expiry => exact inOrder_expireLine n (hstays _ fun x => by cases x <;> rfl)
  | drainEnd => exact inOrder_flushHandling n hs
  | clear _ high => exact hstays _ fun x => by cases x <;> rfl
  | carrier _ high => exact inOrder_carrierEffect n high (hstays _ fun x => by cases x <;> rfl)
  | characterStart => exact inOrder_startCharacter hplaced hs
  | characterComplete _ data parityBit stopBit => exact inOrder_completeCharacter n data parityBit stopBit hs
  | gap => exact inOrder_takeGap n hs
  | breakDetected => exact inOrder_detectBreak n hs
  | marking => exact inOrder_returnToMarking n hs
  | patternMatch => exact hstays _ fun x => by cases x <;> rfl
  | pair hdue high low => exact inOrder_takePair high low hplaced (of_decide_eq_true (Bool.and_eq_true_iff.mp hdue).2) hs
  | syncOctet _ b => exact inOrder_takeSyncOctet n b hs

end InOrder

end Sys2Proof.Machine

end

section
-- The proofs below are checked one after another: in parallel each waits for the others with a thread of its own.
set_option Elab.async false

/-! PROOFS. The commands keep the custody of the frame records. -/

namespace Sys2Proof.Machine

section InOrder

variable {entries : List EntryRef} {frames : List Nat} {s : State} {n : LineNo} {i : Nat}

/-! ## REDIRECT -/

/-- Each list of line src gives up a run of its records to the list of the same name of line dst. -/
structure Transfers (src dst : LineNo) (run : Slot → List Nat) (s u : State) : Prop where
  different : src ≠ dst
  source : ∀ x, ((u.line src).standing x ++ run x).Perm ((s.line src).standing x)
  destination : ∀ x, ((u.line dst).standing x).Perm ((s.line dst).standing x ++ run x)
  others : ∀ m, m ≠ src → m ≠ dst → u.line m = s.line m
  moved : ∀ i x, i ∈ run x → u.frame i = (s.frame i).map (fun r => { r with line := dst })
  unmoved : ∀ i, (∀ x, i ∉ run x) → u.frame i = s.frame i
  tags : u.tags = s.tags
  completion : u.completion = s.completion
  rejects : u.rejects = s.rejects

namespace Transfers

variable {src dst : LineNo} {run : Slot → List Nat} {u : State}

theorem mem_source (h : Transfers src dst run s u) (i : Nat) (x : Slot) :
    i ∈ (s.line src).standing x ↔ i ∈ (u.line src).standing x ∨ i ∈ run x := by
  rw [← (h.source x).mem_iff, List.mem_append]

theorem mem_destination (h : Transfers src dst run s u) (i : Nat) (x : Slot) :
    i ∈ (u.line dst).standing x ↔ i ∈ (s.line dst).standing x ∨ i ∈ run x := by
  rw [(h.destination x).mem_iff, List.mem_append]

/-- A record that moves was in its list of the source line. -/
theorem record_of_mem (h : Transfers src dst run s u) (hs : s.Custody) {y : Slot} (hi : i ∈ run y) :
    ∃ r, s.frame i = some r ∧ r.line = src ∧ r.slot = some y ∧ u.frame i = some { r with line := dst } := by
  obtain ⟨r, hr, hline, hslot⟩ := (hs.standing src y i).mp ((h.mem_source i y).mpr (.inr hi))
  exact ⟨r, hr, hline, hslot, by rw [h.moved i y hi, hr]; rfl⟩

/-- A record is as it was, its line apart. -/
theorem frame_cases (h : Transfers src dst run s u) (hs : s.Custody) (i : Nat) :
    u.frame i = s.frame i ∨ ∃ r, s.frame i = some r ∧ u.frame i = some { r with line := dst } := by
  by_cases hrun : ∃ x, i ∈ run x
  · obtain ⟨x, hx⟩ := hrun
    obtain ⟨r, hr, -, -, hu⟩ := h.record_of_mem hs hx
    exact .inr ⟨r, hr, hu⟩
  · exact .inl (h.unmoved i (not_exists.mp hrun))

theorem nodup (h : Transfers src dst run s u) (hs : s.Custody) (m : LineNo) (x : Slot) : ((u.line m).standing x).Nodup := by
  obtain ⟨hkept, hrun, -⟩ := List.nodup_append.mp ((h.source x).nodup_iff.mpr (hs.nodup src x))
  by_cases hsrc : m = src
  · rwa [hsrc]
  · by_cases hdst : m = dst
    · rw [hdst, (h.destination x).nodup_iff]
      refine List.nodup_append.mpr ⟨hs.nodup dst x, hrun, fun a ha b hb hab => ?_⟩
      subst hab
      obtain ⟨r, hr, hline, -⟩ := (hs.standing dst x a).mp ha
      obtain ⟨q, hq, hline', -, -⟩ := h.record_of_mem hs hb
      rw [Option.some.inj (hr.symm.trans hq)] at hline
      exact h.different (hline'.symm.trans hline)
    · rw [h.others m hsrc hdst]
      exact hs.nodup m x

/-- A record that moves stands in its list of the destination alone. -/
theorem standing_moved (h : Transfers src dst run s u) (hs : s.Custody) {y : Slot} (hi : i ∈ run y) (m : LineNo) (x : Slot) :
    i ∈ (u.line m).standing x ↔ dst = m ∧ y = x := by
  obtain ⟨r, hr, hline, -, -⟩ := h.record_of_mem hs hi
  have hin := (h.mem_source i y).mpr (.inr hi)
  have hother (m : LineNo) (hm : m ≠ src) (x : Slot) : i ∉ (s.line m).standing x := fun hmem => by
    obtain ⟨q, hq, hline', -⟩ := (hs.standing m x i).mp hmem
    rw [← Option.some.inj (hr.symm.trans hq)] at hline'
    exact hm (hline'.symm.trans hline)
  by_cases hsrc : m = src
  · subst hsrc
    refine iff_of_false (fun hmem => ?_) fun hat => h.different hat.1.symm
    obtain rfl := hs.slot_unique hin ((h.mem_source i x).mpr (.inl hmem))
    obtain ⟨-, -, hdisjoint⟩ := List.nodup_append.mp ((h.source y).nodup_iff.mpr (hs.nodup m y))
    exact hdisjoint i hmem i hi rfl
  · by_cases hdst : m = dst
    · subst hdst
      rw [h.mem_destination]
      refine ⟨fun hmem => ⟨rfl, ?_⟩, fun ⟨_, hxy⟩ => .inr (hxy ▸ hi)⟩
      exact hs.slot_unique hin ((h.mem_source i x).mpr (.inr (hmem.resolve_left (hother m hsrc x))))
    · rw [h.others m hsrc hdst]
      exact iff_of_false (hother m hsrc x) fun hat => hdst hat.1.symm

theorem standing_unmoved (h : Transfers src dst run s u) (hi : ∀ x, i ∉ run x) (m : LineNo) (x : Slot) :
    i ∈ (u.line m).standing x ↔ i ∈ (s.line m).standing x := by
  by_cases hsrc : m = src
  · rw [hsrc, h.mem_source, or_iff_left (hi x)]
  · by_cases hdst : m = dst
    · rw [hdst, h.mem_destination, or_iff_left (hi x)]
    · rw [h.others m hsrc hdst]

theorem custody (h : Transfers src dst run s u) (hs : s.Custody) : u.Custody where
  fits i q hq := by
    rcases h.frame_cases hs i with hsame | ⟨r, hr, hu⟩
    · exact hs.fits i q (hsame ▸ hq)
    · rw [← Option.some.inj (hu.symm.trans hq)]
      exact hs.fits i r hr
  nodup := h.nodup hs
  standing m x i := by
    by_cases hrun : ∃ y, i ∈ run y
    · obtain ⟨y, hy⟩ := hrun
      obtain ⟨r, -, -, hslot, hu⟩ := h.record_of_mem hs hy
      rw [h.standing_moved hs hy, hu]
      simp only [Option.some.injEq, exists_eq_left', FrameRecord.slot] at hslot ⊢
      rw [hslot, Option.some.injEq]
    · have hnot := not_exists.mp hrun
      rw [h.standing_unmoved hnot, h.unmoved i hnot]
      exact hs.standing m x i
  tags tag i := by
    rw [h.tags, hs.tags]
    rcases h.frame_cases hs i with hsame | ⟨r, hr, hu⟩
    · rw [hsame]
    · rw [hr, hu]
      simp only [Option.some.injEq, exists_eq_left', FrameRecord.live]
  entries := by rw [h.completion]; exact hs.entries
  done i := by
    rw [h.completion, hs.done, State.isDone, State.isDone]
    rcases h.frame_cases hs i with hsame | ⟨r, hr, hu⟩
    · rw [hsame]
    · rw [hr, hu]
      simp only [Option.some.injEq, exists_eq_left']
  slots k := by rw [h.completion, h.rejects]; exact hs.slots k
  tagTable := by rw [h.tags]; exact hs.tagTable

theorem inOrder (h : Transfers src dst run s u) (hs : s.InOrder entries frames) : u.InOrder entries frames := by
  refine ⟨h.custody hs.custody, hs.awaits.entriesOnce, fun e he => ?_, hs.awaits.framesOnce, fun i hi => ?_⟩
  · obtain ⟨hin, hreported⟩ := hs.awaits.reported e he
    refine ⟨by rw [h.completion]; exact hin, ?_⟩
    cases e with
    | frame i =>
      rcases h.frame_cases hs.custody i with hsame | ⟨r, hr, hu⟩
      · simpa only [entryReported, hsame] using hreported
      · simpa only [entryReported, hr, hu, Option.elim_some] using hreported
    | reject k => simpa only [entryReported, h.rejects] using hreported
  · obtain ⟨r, hr, hsent⟩ := hs.awaits.sent i hi
    rcases h.frame_cases hs.custody i with hsame | ⟨q, hq, hu⟩
    · exact ⟨r, hsame.trans hr, hsent⟩
    · exact ⟨_, hu, by rw [← hsent, Option.some.inj (hr.symm.trans hq)]⟩

end Transfers

theorem placeRun_perm (p : Position) (run queue : List Nat) : (placeRun p run queue).Perm (queue ++ run) := by
  cases p
  · exact List.perm_append_comm
  · exact .refl _

theorem rejects_moveChosen (src dst : LineNo) (p : Position) (chosen : List Candidate) (s : State) :
    (moveChosen src dst p chosen s).rejects = s.rejects := by
  rw [moveChosen_eq]
  obtain ⟨-, table, hstate⟩ := relined_spec dst _ _
  rw [hstate]
  rfl

/-- The frames a REDIRECT takes from a list of the source line. -/
def redirected (s : State) (src : LineNo) (chosen : List Candidate) : Slot → List Nat
  | .urgent => takenAt (picks true chosen) (s.line src).tx.urgent
  | .normal => takenAt (picks false chosen) (s.line src).tx.normal
  | .transmitter | .receiver | .received => []

theorem transfers_moveChosen {src dst : LineNo} (hne : src ≠ dst) (p : Position) (chosen : List Candidate) (s : State) :
    Transfers src dst (redirected s src chosen) s (moveChosen src dst p chosen s) := by
  have hmoved := moved_moveChosen hne p chosen s
  have hrun (i : Nat) : i ∈ takenAt (picks true chosen) (s.line src).tx.urgent ++ takenAt (picks false chosen) (s.line src).tx.normal ↔
      ∃ x, i ∈ redirected s src chosen x := by
    rw [List.mem_append]
    constructor
    · rintro (h | h)
      · exact ⟨.urgent, h⟩
      · exact ⟨.normal, h⟩
    · rintro ⟨x, h⟩
      cases x with
      | urgent => exact .inl h
      | normal => exact .inr h
      | transmitter | receiver | received => cases h
  refine ⟨hne, fun x => ?_, fun x => ?_, hmoved.lines, fun i x hi => ?_, fun i hi => ?_, hmoved.tags, hmoved.completion,
    rejects_moveChosen ..⟩
  · rw [hmoved.source]
    cases x with
    | urgent | normal => exact taken_perm _ _
    | transmitter | receiver | received => exact .of_eq (List.append_nil _)
  · rw [hmoved.destination]
    cases x with
    | urgent | normal => exact placeRun_perm p _ _
    | transmitter | receiver | received => exact .of_eq (List.append_nil _).symm
  · rw [hmoved.frames, if_pos ((hrun i).mpr ⟨x, hi⟩)]
  · rw [hmoved.frames, if_neg fun hin => (not_exists.mpr hi) ((hrun i).mp hin)]

/-! ## Receive mode DISCARD -/

theorem inOrder_discardQueued (hs : s.InOrder entries frames) (hqueue : i ∈ (s.line n).rx.queue) :
    (discardQueued n s i).InOrder entries frames := by
  obtain ⟨r, hr, hslot, hrx⟩ := hs.custody.receivedBy (n := n) (x := .received) (.inr rfl) hqueue
  unfold discardQueued
  split
  · exact hs
  next hbegun =>
    refine inOrder_released hs hr hslot hrx (fun hsent => ?_) (frame_freeFrame i · s) (fun m hm x => ?_) ?_ (fun x hx => ?_)
      (by rw [freeFrame_eq]; rfl) (by rw [freeFrame_eq]; rfl) (by rw [freeFrame_eq]; rfl)
    · simp [hr, FrameRecord.deliveryBegun, hsent] at hbegun
    · rw [State.line_modLine_of_ne _ _ hm, line_freeFrame]
    · rw [State.line_modLine_self, line_freeFrame]
      rfl
    · rw [State.line_modLine_self, line_freeFrame]
      cases x with
      | received => exact absurd rfl hx
      | urgent | normal | transmitter | receiver => rfl

theorem mem_queue_discardQueued {j : Nat} (hj : j ∈ (s.line n).rx.queue) (hne : j ≠ i) : j ∈ ((discardQueued n s i).line n).rx.queue := by
  unfold discardQueued
  split
  · exact hj
  · rw [State.line_modLine_self, line_freeFrame]
    exact List.mem_filter.mpr ⟨hj, decide_eq_true hne⟩

theorem inOrder_releaseDiscard (n : LineNo) (hs : s.InOrder entries frames) : (releaseDiscard n s).InOrder entries frames := by
  have hfold (queue : List Nat) {s : State} (hs : s.InOrder entries frames) (hnodup : queue.Nodup) (hqueue : ∀ i ∈ queue, i ∈ (s.line n).rx.queue) :
      (queue.foldl (discardQueued n) s).InOrder entries frames := by
    induction queue generalizing s with
    | nil => exact hs
    | cons i queue ih =>
      obtain ⟨hnot, hnodup⟩ := List.nodup_cons.mp hnodup
      exact ih (inOrder_discardQueued hs (hqueue i List.mem_cons_self)) hnodup fun j hj =>
        mem_queue_discardQueued (hqueue j (List.mem_cons_of_mem _ hj)) fun hsame => hnot (hsame ▸ hj)
  unfold releaseDiscard
  exact Stays.inOrder (Stays.modLine _ n fun x => by cases x <;> rfl) (hfold _ hs (hs.custody.nodup n .received) fun _ => id)

/-! ## The commands -/

/-- The judgments behind a piece that keeps the laws of its line. -/
theorem Acts.inOrder_settleLine {t : State} {d : Nat} (h : Acts n d s t) (hplaced : ∀ m, (s.line m).placed) (atTick : Bool)
    (ht : t.InOrder entries frames) : (settleLine atTick n t).InOrder entries frames :=
  Machine.inOrder_settleLine atTick ((h.lines n).placed (hplaced n)) ht

theorem inOrder_replyOk (c : CommandCode) (tag : Byte) (results : List Byte) (hs : s.InOrder entries frames) :
    (replyOk c tag results s).InOrder entries frames := inOrder_joinReply _ hs

theorem inOrder_refuse (c : CommandCode) (tag : Byte) (status : ReplyStatus) (hs : s.InOrder entries frames) :
    (refuse c tag status s).InOrder entries frames := inOrder_joinReply _ hs

theorem inOrder_settleAt (atTick : Bool) (n : Option LineNo) (hplaced : ∀ m, (s.line m).placed) (hs : s.InOrder entries frames) :
    (settleAt atTick n s).InOrder entries frames := by
  cases n with
  | none => exact hs
  | some k => exact inOrder_settleLine atTick (hplaced k) hs

theorem inOrder_applyTxMode (n : LineNo) (t : TxMode) (limit : Nat) (hs : s.InOrder entries frames) :
    (applyTxMode n t limit s).InOrder entries frames := by
  unfold applyTxMode
  split
  · exact inOrder_flushHandling n hs
  · split
    · exact hs
    · exact Stays.inOrder (Stays.modLine _ n fun x => by cases x <;> rfl) hs

theorem inOrder_applyRxMode (n : LineNo) (r : RxMode) (hs : s.InOrder entries frames) : (applyRxMode n r s).InOrder entries frames := by
  unfold applyRxMode
  split
  · exact hs
  · exact inOrder_releaseDiscard n hs

theorem inOrder_closeOpen (hopened : (s.line n).state = .opened) (hplaced : ∀ m, (s.line m).placed) (tag : Byte) (t : TxMode) (r : RxMode)
    (limit : Nat) (hs : s.InOrder entries frames) : (closeOpen tag n t r limit s).InOrder entries frames := by
  have hbegun : (s.modLine n (Line.beginClose t r)).InOrder entries frames :=
    Stays.inOrder (Stays.modLine _ n fun x => by cases x <;> rfl) hs
  have hreplied := inOrder_replyOk .closeLine tag [] (inOrder_endBreak n .aborted (inOrder_closeReceiver n hbegun))
  have hacts := (acts_beginClose hopened t r).trans ((acts_endBreak n .aborted _).trans ((calm_replyOk .closeLine tag [] _).acts n))
  have hmodes := ((calm_applyTxMode n t limit _).trans (calm_applyRxMode n r _)).lines n (s := replyOk .closeLine tag []
    (endBreak n .aborted (closeReceiver n (s.modLine n (Line.beginClose t r)))))
  exact inOrder_settleLine false (hmodes.keeps.placed ((hacts.lines n).placed (hplaced n)))
    (inOrder_applyRxMode n r (inOrder_applyTxMode n t limit hreplied))

theorem inOrder_escalate (hplaced : ∀ m, (s.line m).placed) (tag : Byte) (n : LineNo) (t : TxMode) (r : RxMode) (hs : s.InOrder entries frames) :
    (escalate tag n t r s).InOrder entries frames := by
  have hflush (b : Bool) : (if b then flushHandling n s else s).InOrder entries frames ∧ Calm 0 s (if b then flushHandling n s else s) := by
    split
    · exact ⟨inOrder_flushHandling n hs, calm_flushHandling ..⟩
    · exact ⟨hs, .refl s⟩
  have hrelease (b : Bool) {u : State} (hu : u.InOrder entries frames) :
      (if b then releaseDiscard n u else u).InOrder entries frames ∧ Calm 0 u (if b then releaseDiscard n u else u) := by
    split
    · exact ⟨inOrder_releaseDiscard n hu, calm_releaseDiscard ..⟩
    · exact ⟨hu, .refl u⟩
  unfold escalate
  dsimp only
  split
  · obtain ⟨htx, hcalmTx⟩ := hflush (decide (t = .flush) && decide ((s.line n).close.txMode = .drain))
    obtain ⟨hrx, hcalmRx⟩ := hrelease (decide (r = .discard) && decide ((s.line n).close.rxMode = .deliver)) htx
    exact Acts.inOrder_settleLine ((hcalmTx.trans (hcalmRx.trans (calm_replyOk ..))).acts n) hplaced false (inOrder_replyOk _ _ _ hrx)
  · exact inOrder_refuse _ _ _ hs

theorem inOrder_redirect {src dst : LineNo} (hne : src ≠ dst) (hopened : (s.line dst).state = .opened) (p : Position) (chosen : List Candidate)
    (hroom : chosen.length ≤ redirectRoom s dst) (hplaced : ∀ m, (s.line m).placed) (hs : s.InOrder entries frames) :
    (settleLine false dst (settleLine false src (moveChosen src dst p chosen s))).InOrder entries frames := by
  have hmoved (m : LineNo) : ((moveChosen src dst p chosen s).line m).placed :=
    ((acts_moveChosen hne hopened p chosen hroom).lines m).placed (hplaced m)
  exact inOrder_settleLine false (((acts_settleLine false src _).lines dst).placed (hmoved dst))
    (inOrder_settleLine false (hmoved src) ((transfers_moveChosen hne p chosen s).inOrder hs))

theorem inOrder_commandBody {c : CommandCode} (hc : c ≠ .resetDevice) (tag : Byte) (ps : List Byte) (hplaced : ∀ m, (s.line m).placed)
    (hs : s.InOrder entries frames) : (commandBody c tag ps s).InOrder entries frames := by
  have hrefused (c : CommandCode) (status : ReplyStatus) : (refuse c tag status s).InOrder entries frames := inOrder_refuse _ _ _ hs
  cases c
  case resetDevice => exact absurd rfl hc
  case identify => exact inOrder_replyOk _ _ _ hs
  case setDevice =>
    simp only [commandBody, setDeviceBody]
    split
    · split
      · exact inOrder_replyOk _ _ _ (Stays.inOrder {} hs)
      · exact hrefused ..
    · exact hs
  case queryDevice =>
    simp only [commandBody, queryDeviceBody]
    split
    · split
      · exact hrefused ..
      · refine inOrder_replyOk _ _ _ ?_
        split
        · exact Stays.inOrder {} hs
        · exact hs
    · exact hs
  case openLine =>
    simp only [commandBody, openLineBody]
    split
    · split
      · exact hrefused ..
      next n _ =>
        split
        · exact hrefused ..
        next c _ =>
          split
          · exact hrefused ..
          next hclosed =>
            obtain ⟨hstate, hreport⟩ := not_or.mp hclosed
            have hopens : Acts n 0 s (s.modLine n (Line.openWith c)) :=
              .modLine s n (by rw [Line.openWith_eq]) (Line.keeps_openWith (not_not.mp hstate) (Bool.eq_false_iff.mpr hreport))
            refine inOrder_replyOk _ _ _ (hopens.inOrder_settleLine hplaced false (Stays.inOrder (Stays.modLine _ n fun x => ?_) hs))
            cases x <;> rfl
    · exact hs
  case closeLine =>
    simp only [commandBody, closeLineBody]
    split
    · split
      · exact hrefused ..
      · split
        · split
          next hopened => exact inOrder_closeOpen hopened hplaced _ _ _ _ hs
          next => exact inOrder_escalate hplaced _ _ _ _ hs
          next => exact hrefused ..
        · exact hrefused ..
    · exact hs
  case queryLine =>
    simp only [commandBody, queryLineBody]
    split
    · split
      · exact hrefused ..
      · split
        · exact hrefused ..
        · refine inOrder_replyOk _ _ _ ?_
          split
          · exact Stays.inOrder (Stays.modLine _ _ fun x => by cases x <;> rfl) hs
          · exact hs
    · exact hs
  case ackCondition =>
    simp only [commandBody, ackConditionBody]
    split
    · split
      · exact hrefused ..
      · refine inOrder_replyOk _ _ _ ?_
        split
        · exact inOrder_judgeConditions _ (Stays.inOrder (Stays.modLine _ _ fun x => by cases x <;> rfl) hs)
        · exact hs
    · exact hs
  case sendBreak =>
    simp only [commandBody, sendBreakBody]
    split
    · split
      · exact hrefused ..
      next n _ =>
        split
        · exact hrefused ..
        · split
          · exact hrefused ..
          · split
            · exact hrefused ..
            · exact (acts_pendingBreak n _ s).inOrder_settleLine hplaced false
                (Stays.inOrder (Stays.modLine _ n fun x => by cases x <;> rfl) hs)
    · exact hs
  case seekLine =>
    simp only [commandBody, seekLineBody]
    split
    · split
      · exact hrefused ..
      next n _ =>
        split
        · exact hrefused ..
        next hsync =>
          obtain ⟨-, hsync⟩ := not_or.mp hsync
          exact inOrder_replyOk _ _ _ ((acts_seekReceiver (Bool.of_not_eq_false hsync)).inOrder_settleLine hplaced false
            (inOrder_seekReceiver n hs))
    · exact hs
  case cancelFrame =>
    simp only [commandBody, cancelFrameBody]
    split
    · split
      · exact hrefused ..
      next i _ =>
        exact inOrder_replyOk _ _ _ (inOrder_settleAt false _ (fun m => ((calm_failFrame .cancelled i s).lines m).keeps.placed (hplaced m))
          (inOrder_failFrame .cancelled i hs))
    · exact hs
  case redirect =>
    simp only [commandBody, redirectBody]
    split
    · split
      · split
        · split
          · exact hrefused ..
          next hne =>
            split
            · exact hrefused ..
            next hopened =>
              split
              · exact hrefused ..
              · exact inOrder_replyOk _ _ _ (inOrder_redirect hne (not_not.mp hopened) _ _ (List.length_take_le ..) hplaced hs)
        · exact hrefused ..
      · exact hrefused ..
    · exact hs
  case setLine =>
    simp only [commandBody, setLineBody]
    split
    · split
      · exact hrefused ..
      next n _ =>
        split
        · exact hrefused ..
        next v _ =>
          split
          · exact hrefused ..
          next hfits =>
            obtain ⟨-, hquota, hlimit⟩ : _ ∧ _ ∧ _ := by simpa only [not_or] using hfits
            have hsets : Acts n 0 s (s.modLine n (Line.setValues v)) :=
              .modLine s n rfl (Line.keeps_setValues (Nat.not_lt.mp hquota) (Nat.not_lt.mp hlimit))
            exact inOrder_replyOk _ _ _ (hsets.inOrder_settleLine hplaced false
              (Stays.inOrder (Stays.modLine _ n fun x => by cases x <;> rfl) hs))
    · exact hs

end InOrder

end Sys2Proof.Machine

end

section
-- The proofs below are checked one after another: in parallel each waits for the others with a thread of its own.
set_option Elab.async false

/-! PROOFS. The custody of the frame records where records go to the host: reject slots, marks, segments, rewinds, releases. -/

namespace Sys2Proof.Machine

section InOrder

variable {entries : List EntryRef} {frames : List Nat} {s : State} {n : LineNo} {i : Nat}

/-! ## Reject slots -/

theorem inOrder_rejectFirst {g : Segment} {status : RejectStatus} {t : State} (h : rejectFirst g status s = some t)
    (hs : s.InOrder entries frames) : t.InOrder entries frames := by
  simp only [rejectFirst, Option.map_eq_some_iff] at h
  obtain ⟨k, hk, rfl⟩ := h
  have hfree : Table.get s.rejects k = none := Table.get_of_lowestFree hk
  have hnot : EntryRef.reject k ∉ s.completion := fun hin => by
    have hsome := (hs.custody.slots k).mp hin
    rw [hfree] at hsome
    cases hsome
  refine ⟨⟨hs.custody.fits, hs.custody.nodup, hs.custody.standing, hs.custody.tags, ?_, fun i => ?_, fun j => ?_, hs.custody.tagTable⟩,
    hs.awaits.entriesOnce, fun e he => ?_, hs.awaits.framesOnce, hs.awaits.sent⟩
  · exact List.nodup_append.mpr ⟨hs.custody.entries, List.nodup_singleton _, fun a ha b hb hab =>
      hnot (by rw [List.mem_singleton] at hb; rwa [← hb, ← hab])⟩
  · simp only [List.mem_append, List.mem_singleton, reduceCtorEq, or_false]
    exact hs.custody.done i
  · simp only [List.mem_append, List.mem_singleton, EntryRef.reject.injEq]
    by_cases hj : j = k
    · simp [hj]
    · rw [Table.get_put_of_ne _ _ hj, or_iff_left hj]
      exact hs.custody.slots j
  · obtain ⟨hin, hreported⟩ := hs.awaits.reported e he
    refine ⟨List.mem_append_left _ hin, ?_⟩
    cases e with
    | frame i => exact hreported
    | reject j =>
      have hj : j ≠ k := fun hsame => hnot (hsame ▸ hin)
      simpa only [entryReported, Table.get_put_of_ne _ _ hj] using hreported

/-! ## Marks -/

theorem inPlace_markEntries (mark : Bool) (es : List EntryRef) (s : State) :
    InPlace FrameRecord.SamePlace s (es.foldl (markEntry mark) s) where
  frames i := by
    rw [frame_markEntries]
    cases hr : s.frame i with
    | none => simp
    | some r =>
      right
      split
      · exact ⟨r, { r with reported := mark }, rfl, rfl, rfl, rfl, rfl, .rfl, .rfl, id⟩
      · exact ⟨r, r, rfl, rfl, rfl, rfl, rfl, .rfl, .rfl, id⟩
  standing m x := by rw [markEntries_eq]; rfl
  tags := by rw [markEntries_eq]; rfl
  completion := by rw [markEntries_eq]; rfl
  rejects k := by
    rw [slot_markEntries]
    split
    · rw [Option.isSome_map]
    · rfl

theorem entryReported_markEntries {e : EntryRef} (es : List EntryRef) (h : entryReported s e = true ∨ e ∈ es) :
    entryReported (es.foldl (markEntry true) s) e = true := by
  cases e with
  | frame i =>
    simp only [entryReported, frame_markEntries] at h ⊢
    split
    · cases s.frame i <;> rfl
    next hnot => exact h.resolve_right hnot
  | reject k =>
    simp only [entryReported, slot_markEntries] at h ⊢
    split
    · cases Table.get s.rejects k <;> rfl
    next hnot => exact h.resolve_right hnot

/-- The entries of a new TX_DONE record wait for the host too. -/
theorem inOrder_markEntries {es : List EntryRef} (hs : s.InOrder entries frames) (honce : es.Nodup)
    (hnew : ∀ e ∈ es, e ∈ s.completion ∧ entryReported s e = false) :
    (es.foldl (markEntry true) s).InOrder (entries ++ es) frames := by
  have hplace := inPlace_markEntries true es s
  refine ⟨hplace.custody hs.custody, List.nodup_append.mpr ⟨hs.awaits.entriesOnce, honce, fun a ha b hb hab => ?_⟩, fun e he => ?_,
    hs.awaits.framesOnce, fun i hi => ?_⟩
  · have hreported := (hs.awaits.reported a ha).2
    rw [hab, (hnew b hb).2] at hreported
    cases hreported
  · rw [hplace.completion]
    rcases List.mem_append.mp he with he | he
    · exact ⟨(hs.awaits.reported e he).1, entryReported_markEntries es (.inl (hs.awaits.reported e he).2)⟩
    · exact ⟨(hnew e he).1, entryReported_markEntries es (.inr he)⟩
  · obtain ⟨r, hr, hsent⟩ := hs.awaits.sent i hi
    rw [frame_markEntries, hr]
    split
    · exact ⟨_, rfl, hsent⟩
    · exact ⟨r, rfl, hsent⟩

/-! ## A record is formed -/

/-- The frame at the delivery pointer is QUEUED or DELIVERING (R136). -/
theorem state_of_deliveryPointer {r : FrameRecord} (h : deliveryPointer s n = some i) (hr : s.frame i = some r) :
    r.state = .queued ∨ r.state = .delivering := by
  have hwaits := List.find?_some h
  simpa [hr] using hwaits

/-- Two states of a frame in the receive queue are in the same place. -/
theorem FrameRecord.samePlace_of_received {r q : FrameRecord} (hr : r.slot = some .received) (hq : q.slot = some .received)
    (hline : q.line = r.line) (htag : q.tag = r.tag) (hkind : q.kind = r.kind) : r.SamePlace q := by
  have hnotTx {p : FrameRecord} (hp : p.slot = some .received) : ¬ p.state.ofTx := by
    rcases (slot_received_iff p).mp hp with h | h | h <;> simp [h]
  have hnotDone {p : FrameRecord} (hp : p.slot = some .received) : p.state ≠ .done := fun hdone =>
    hnotTx hp (.inr (.inr (.inr (.inr hdone))))
  refine ⟨hline, htag, hq.trans hr.symm, iff_of_false (fun h => hnotTx hq h.1) fun h => hnotTx hr h.1,
    iff_of_false (hnotDone hq) (hnotDone hr), fun h => ⟨?_, fun hat => ?_⟩⟩
  · rw [hkind, h.1]
    exact iff_of_false (hnotTx hr) (hnotTx hq)
  · exact absurd (hat.elim (fun h => .inr (.inr (.inr (.inl h)))) fun h => .inr (.inr (.inr (.inr h)))) (hnotTx hq)

/-- The frame after a segment of this length has been cut from it (R138, R139). -/
def FrameRecord.segmented (length : Nat) (r : FrameRecord) : FrameRecord :=
  { r with cursor := r.cursor + length, state := if decide (r.cursor + length = r.stored) then .sent else .delivering }

theorem FrameRecord.state_segmented (length : Nat) (r : FrameRecord) :
    (r.segmented length).state = .sent ∨ (r.segmented length).state = .delivering := by
  unfold FrameRecord.segmented
  dsimp only
  split
  · exact .inl rfl
  · exact .inr rfl

theorem FrameRecord.alike_segmented {r : FrameRecord} (hstate : r.state = .queued ∨ r.state = .delivering) (length : Nat) :
    r.Alike (r.segmented length) where
  toSamePlace := FrameRecord.samePlace_of_received ((slot_received_iff r).mpr (hstate.imp_right .inl))
    ((slot_received_iff _).mpr ((r.state_segmented length).elim (fun h => .inr (.inr h)) fun h => .inr (.inl h))) rfl rfl rfl
  sent hsent := by rcases hstate with h | h <;> rw [h] at hsent <;> cases hsent
  reported := id

theorem inOrder_formSegmentOf {r : FrameRecord} (hr : s.frame i = some r) (hstate : r.state = .queued ∨ r.state = .delivering) (m : LineNo)
    (turn : Nat) (seq : Seq) (hs : s.InOrder entries frames) :
    (formSegmentOf m turn i r s).2.InOrder entries
      (frames ++ (Retained.lastOf { seq := seq, content := (formSegmentOf m turn i r s).1 }).toList) := by
  let length := min s.link.segmentSize (r.stored - r.cursor)
  have hput : (formSegmentOf m turn i r s).2.InOrder entries frames :=
    Stays.inOrder (s := s.putFrame i (r.segmented length)) {} ((touches_putFrame hr (FrameRecord.alike_segmented hstate length)).inOrder hs)
  have hframe : (formSegmentOf m turn i r s).2.frame i = some (r.segmented length) := State.frame_putFrame_self ..
  have hcontent : (formSegmentOf m turn i r s).1 = .rxSegment i r.cursor length (decide (r.cursor = 0))
      (decide (r.cursor + length = r.stored)) (decide (r.cursor = 0) && r.lossMark) r.resent := rfl
  rw [hcontent]
  cases hlast : decide (r.cursor + length = r.stored) with
  | false => exact (List.append_nil frames).symm ▸ hput
  | true =>
    have hsent : (r.segmented length).state = .sent := by
      simp only [FrameRecord.segmented, hlast, if_true]
    have hnot : i ∉ frames := fun hin => by
      obtain ⟨p, hp, hwas⟩ := hs.awaits.sent i hin
      rw [Option.some.inj (hp.symm.trans hr)] at hwas
      rcases hstate with h | h <;> rw [h] at hwas <;> cases hwas
    refine ⟨hput.custody, hput.awaits.entriesOnce, hput.awaits.reported, ?_, fun j hj => ?_⟩
    · exact List.nodup_append.mpr ⟨hs.awaits.framesOnce, List.nodup_singleton i, fun a ha b hb hab => hnot (List.mem_singleton.mp hb ▸ hab ▸ ha)⟩
    · rcases List.mem_append.mp hj with hj | hj
      · exact hput.awaits.sent j hj
      · obtain rfl : j = i := List.mem_singleton.mp hj
        exact ⟨_, hframe, hsent⟩

theorem unreportedBatch_spec (hs : s.Custody) :
    (unreportedBatch s).Nodup ∧ ∀ e ∈ unreportedBatch s, e ∈ s.completion ∧ entryReported s e = false := by
  refine ⟨(hs.entries.filter _).sublist (List.take_sublist ..), fun e he => ?_⟩
  obtain ⟨hin, hnot⟩ := List.mem_filter.mp (List.mem_of_mem_take he)
  exact ⟨hin, by simpa using hnot⟩

/-- What a new record carries waits for the host from then on. -/
theorem inOrder_formRecord {t : State} {c : Content} (h : formRecord s = some (c, t)) (seq : Seq) (hs : s.InOrder entries frames) :
    t.InOrder (entries ++ Retained.entries { seq := seq, content := c })
      (frames ++ (Retained.lastOf { seq := seq, content := c }).toList) := by
  have hnone {u : State} (hu : u.InOrder entries frames) : u.InOrder (entries ++ []) (frames ++ []) := by
    rwa [List.append_nil, List.append_nil]
  rcases formRecord_cases h with h | h | h | h | h
  · simp only [formReply, Option.map_eq_some_iff] at h
    obtain ⟨q, -, h⟩ := h
    cases h
    exact hnone (Stays.inOrder {} hs)
  · simp only [formCondition, Option.map_eq_some_iff] at h
    obtain ⟨n, -, h⟩ := h
    cases h
    exact hnone (Stays.inOrder (Stays.modLine s n fun x => by cases x <;> rfl) hs)
  · unfold formDone at h
    split at h
    · cases h
    · cases h
      obtain ⟨honce, hnew⟩ := unreportedBatch_spec hs.custody
      exact (List.append_nil frames).symm ▸ inOrder_markEntries hs honce hnew
  · simp only [formClosed, Option.map_eq_some_iff] at h
    obtain ⟨n, -, h⟩ := h
    cases h
    exact hnone (Stays.inOrder (Stays.modLine s n fun x => by cases x <;> rfl) hs)
  · unfold formSegment at h
    split at h
    · cases h
    next n turn _ =>
      split at h
      · cases h
      next i hpointer =>
        simp only [Option.map_eq_some_iff] at h
        obtain ⟨r, hr, h⟩ := h
        cases h
        exact (List.append_nil entries).symm ▸ inOrder_formSegmentOf hr (state_of_deliveryPointer hpointer hr) n turn seq hs

/-! ## Rewinds -/

theorem State.Custody.inOrder_nil (hs : s.Custody) : s.InOrder [] [] := ⟨hs, .nil, nofun, .nil, nofun⟩

theorem State.InOrder.forget (hs : s.InOrder entries frames) : s.InOrder [] [] := hs.custody.inOrder_nil

theorem inOrder_rewindRecord (k : Retained) (hs : s.InOrder [] []) : (rewindRecord s k).InOrder [] [] := by
  unfold rewindRecord
  split
  · exact Stays.inOrder {} hs
  next n _ _ =>
    refine Stays.inOrder (Stays.modLine s n fun x => ?_) hs
    unfold Line.rewindCondition
    split <;> cases x <;> rfl
  · exact ((inPlace_markEntries false _ s).custody hs.custody).inOrder_nil
  next n _ _ _ _ =>
    refine Stays.inOrder (Stays.modLine s n fun x => ?_) hs
    unfold Line.rewindClosed
    split <;> cases x <;> rfl
  · exact hs

theorem FrameRecord.samePlace_rewind (r : FrameRecord) : r.SamePlace r.rewind := by
  have hrewound (hstate : r.state = .delivering ∨ r.state = .sent) :
      r.SamePlace { r with state := .queued, cursor := 0, resent := true } :=
    FrameRecord.samePlace_of_received ((slot_received_iff r).mpr (.inr hstate)) ((slot_received_iff _).mpr (.inl rfl)) rfl rfl rfl
  unfold FrameRecord.rewind
  split
  next hstate => exact hrewound (.inl hstate)
  next hstate => exact hrewound (.inr hstate)
  next => exact ⟨rfl, rfl, rfl, .rfl, .rfl, id⟩

theorem inOrder_rewindReceive (hs : s.InOrder [] []) : (rewindReceive s).InOrder [] [] := by
  have hplace : InPlace FrameRecord.SamePlace s (rewindReceive s) :=
    { frames := fun i => by
        rw [frame_rewindReceive]
        cases s.frame i with
        | none => exact .inl ⟨rfl, rfl⟩
        | some r => exact .inr ⟨r, r.rewind, rfl, rfl, r.samePlace_rewind⟩ }
  exact (hplace.custody hs.custody).inOrder_nil

/-! ## Ticks -/

theorem FrameRecord.alike_tick (r : FrameRecord) : r.Alike r.tick := by
  unfold FrameRecord.tick
  split
  · exact FrameRecord.alike_of_state rfl rfl rfl rfl rfl rfl fun _ => id
  · exact FrameRecord.alike_of_state rfl rfl rfl rfl rfl rfl fun _ => id
  · exact .refl r

theorem inOrder_countTick (hs : s.InOrder entries frames) : (countTick s).InOrder entries frames := by
  have hframe (i : Nat) : (countTick s).frame i = (s.frame i).map FrameRecord.tick := Table.get_map ..
  have hplace : InPlace FrameRecord.Alike s (countTick s) :=
    { frames := fun i => by
        rw [hframe]
        cases s.frame i with
        | none => exact .inl ⟨rfl, rfl⟩
        | some r => exact .inr ⟨r, r.tick, rfl, rfl, r.alike_tick⟩
      standing := fun m x => by
        rw [line_countTick]
        cases x <;> rfl }
  exact hplace.inOrder rfl hs

/-! ## Releases -/

theorem rehomes_releaseEntry {r : FrameRecord} (hs : s.Custody) (hr : s.frame i = some r) (hdone : r.state = .done) :
    Rehomes i r.line s (releaseEntry s (.frame i)) := by
  have hframe (j : Nat) : (releaseEntry s (.frame i)).frame j = if j = i then none else s.frame j := frame_freeFrame i j _
  have hfree : (releaseEntry s (.frame i)).frame i = none := (hframe i).trans (if_pos rfl)
  have hline (m : LineNo) : (releaseEntry s (.frame i)).line m = s.line m := line_freeFrame i _ m
  have htags : (releaseEntry s (.frame i)).tags = s.tags := by
    rw [releaseEntry, freeFrame_eq]
  have hrejects : (releaseEntry s (.frame i)).rejects = s.rejects := by
    rw [releaseEntry, freeFrame_eq]
  have hcompletion : (releaseEntry s (.frame i)).completion = s.completion.filter (· ≠ .frame i) := by
    rw [releaseEntry, freeFrame_eq]
  refine ⟨fun j hj => (hframe j).trans (if_neg hj), fun p hp => by rw [← Option.some.inj (hr.symm.trans hp)],
    fun q hq => absurd (hfree.symm.trans hq) nofun, fun m _ x => by rw [hline], fun x => .same (by rw [hline]) (iff_of_false ?_ ?_),
    fun tag j _ => by rw [htags], fun tag => ?_, .left hcompletion ?_, hrejects, by rw [htags]; exact id⟩
  · simp [State.slotOf, hfree]
  · simp [State.slotOf, hr, FrameRecord.slot, FrameState.slot, hdone]
  · rw [htags, hs.tags, hr, hfree]
    refine iff_of_false ?_ (by simp)
    rintro ⟨p, hp, hlive, -⟩
    rw [← Option.some.inj hp] at hlive
    exact hlive.2 hdone
  · rintro ⟨q, hq, -⟩
    rw [hfree] at hq
    cases hq

theorem inOrder_releaseEntry {e : EntryRef} (hs : s.InOrder (e :: entries) frames) : (releaseEntry s e).InOrder entries frames := by
  obtain ⟨hnot, honce⟩ := List.nodup_cons.mp hs.awaits.entriesOnce
  have hrest : s.Awaits entries frames :=
    ⟨honce, fun d hd => hs.awaits.reported d (List.mem_cons_of_mem _ hd), hs.awaits.framesOnce, hs.awaits.sent⟩
  obtain ⟨hin, -⟩ := hs.awaits.reported e List.mem_cons_self
  cases e with
  | frame i =>
    obtain ⟨r, hr, hdone⟩ := (hs.custody.done i).mp hin
    have hrehomes := rehomes_releaseEntry hs.custody hr hdone
    refine ⟨hrehomes.custody hs.custody, hrehomes.awaits hrest hnot fun hframe => ?_⟩
    obtain ⟨p, hp, hsent⟩ := hs.awaits.sent i hframe
    rw [Option.some.inj (hp.symm.trans hr), hdone] at hsent
    cases hsent
  | reject k =>
    refine ⟨⟨hs.custody.fits, hs.custody.nodup, hs.custody.standing, hs.custody.tags, hs.custody.entries.filter _, fun i => ?_, fun j => ?_,
      hs.custody.tagTable⟩, honce, fun d hd => ?_, hs.awaits.framesOnce, hs.awaits.sent⟩
    · simp only [releaseEntry, List.mem_filter, ne_eq, reduceCtorEq, not_false_eq_true, decide_true, and_true]
      exact hs.custody.done i
    · simp only [releaseEntry, List.mem_filter, ne_eq, EntryRef.reject.injEq, decide_eq_true_eq]
      by_cases hj : j = k
      · simp [hj]
      · rw [Table.get_del_of_ne _ hj, and_iff_left hj]
        exact hs.custody.slots j
    · have hne : d ≠ .reject k := fun hsame => hnot (hsame ▸ hd)
      obtain ⟨hdin, hreported⟩ := hrest.reported d hd
      refine ⟨List.mem_filter.mpr ⟨hdin, decide_eq_true hne⟩, ?_⟩
      cases d with
      | frame i => exact hreported
      | reject j =>
        simpa only [entryReported, releaseEntry, Table.get_del_of_ne _ fun hsame => hne (congrArg EntryRef.reject hsame)] using hreported

theorem inOrder_releaseEntries (es : List EntryRef) (hs : s.InOrder (es ++ entries) frames) :
    (es.foldl releaseEntry s).InOrder entries frames := by
  induction es generalizing s with
  | nil => exact hs
  | cons e es ih => exact ih (inOrder_releaseEntry hs)

theorem inOrder_releaseReceived (hs : s.InOrder entries (i :: frames)) : (releaseReceived i s).InOrder entries frames := by
  obtain ⟨hnot, honce⟩ := List.nodup_cons.mp hs.awaits.framesOnce
  have hrest : s.Awaits entries frames :=
    ⟨hs.awaits.entriesOnce, hs.awaits.reported, honce, fun j hj => hs.awaits.sent j (List.mem_cons_of_mem _ hj)⟩
  obtain ⟨r, hr, hsent⟩ := hs.awaits.sent i List.mem_cons_self
  have hslot : r.slot = some .received := (slot_received_iff r).mpr (.inr (.inr hsent))
  obtain ⟨q, hq, -, hrx⟩ := hs.custody.receivedBy (n := r.line) (i := i) (x := .received) (.inr rfl)
    ((hs.custody.standing _ _ _).mpr ⟨r, hr, rfl, hslot⟩)
  obtain rfl : r = q := Option.some.inj (hr.symm.trans hq)
  simp only [releaseReceived, hr]
  have hrehomes : Rehomes i r.line s
      ((freeFrame i s).modLine r.line (fun l => { l with rx := { l.rx with queue := l.rx.queue.filter (· ≠ i) } })) := by
    refine rehomes_released hs.custody hr hslot hrx (frame_freeFrame i · s) (fun m hm x => ?_) ?_ (fun x hx => ?_)
      (by rw [freeFrame_eq]; rfl) (by rw [freeFrame_eq]; rfl) (by rw [freeFrame_eq]; rfl)
    · rw [State.line_modLine_of_ne _ _ hm, line_freeFrame]
    · rw [State.line_modLine_self, line_freeFrame]
      rfl
    · rw [State.line_modLine_self, line_freeFrame]
      cases x with
      | received => exact absurd rfl hx
      | urgent | normal | transmitter | receiver => rfl
  refine ⟨hrehomes.custody hs.custody, hrehomes.awaits hrest (fun hentry => ?_) hnot⟩
  obtain ⟨p, hp, hdone⟩ := (hs.custody.done i).mp (hs.awaits.reported _ hentry).1
  rw [Option.some.inj (hp.symm.trans hr), hsent] at hdone
  cases hdone

/-- The source of an acknowledged record releases what the record carried. -/
theorem inOrder_releaseRecord (k : Retained) (hs : s.InOrder (k.entries ++ entries) (k.lastOf.toList ++ frames)) :
    (releaseRecord s k).InOrder entries frames := by
  obtain ⟨seq, content⟩ := k
  cases content with
  | reply => exact Stays.inOrder {} hs
  | condition | closed => exact hs
  | txDone es => exact inOrder_releaseEntries es hs
  | rxSegment i _ _ _ last _ _ =>
    cases last with
    | false => exact hs
    | true => exact inOrder_releaseReceived hs

theorem inOrder_releaseRecords (ks : List Retained)
    (hs : s.InOrder (ks.flatMap Retained.entries ++ entries) (ks.filterMap Retained.lastOf ++ frames)) :
    (ks.foldl releaseRecord s).InOrder entries frames := by
  induction ks generalizing s with
  | nil => exact hs
  | cons k ks ih =>
    refine ih (inOrder_releaseRecord k ?_)
    have hframes : (k :: ks).filterMap Retained.lastOf = k.lastOf.toList ++ ks.filterMap Retained.lastOf := by
      rw [List.filterMap_cons]
      cases k.lastOf <;> rfl
    rwa [List.flatMap_cons, hframes, List.append_assoc, List.append_assoc] at hs

/-! ## Nothing is stored -/

theorem custody_of_empty {t : State} (hframes : t.store.frames = []) (htags : t.tags = []) (hrejects : t.rejects = [])
    (hcompletion : t.completion = []) (hlines : ∀ m x, (t.line m).standing x = []) : t.Custody := by
  have hframe (i : Nat) : t.frame i = none := by rw [State.frame, hframes]; rfl
  have hnone (i : Nat) (P : FrameRecord → Prop) : ¬ ∃ r, t.frame i = some r ∧ P r := by
    rintro ⟨r, hr, -⟩
    rw [hframe] at hr
    cases hr
  refine ⟨fun i r hr => absurd ⟨r, hr, trivial⟩ (hnone i fun _ => True), fun m x => by rw [hlines]; exact .nil, fun m x i => ?_,
    fun tag i => ?_, by rw [hcompletion]; exact .nil, fun i => ?_, fun k => ?_, by rw [htags]; exact Table.wf_nil⟩
  · rw [hlines]
    exact iff_of_false nofun (hnone i _)
  · rw [htags]
    exact iff_of_false nofun (hnone i _)
  · rw [hcompletion]
    exact iff_of_false nofun (hnone i _)
  · rw [hcompletion, hrejects]
    exact iff_of_false nofun nofun

end InOrder

/-! ## The law -/

/-- Each line's states agree, and the frame records are in custody with what the retained records refer to. -/
def State.Ordered (s : State) : Prop :=
  (∀ n, (s.line n).placed) ∧ s.InOrder (s.link.retain.flatMap Retained.entries) (s.link.retain.filterMap Retained.lastOf)

theorem State.Ordered.of_retain {s t : State} (hplaced : ∀ n, (t.line n).placed) (hretain : t.link.retain = s.link.retain)
    (ht : t.InOrder (s.link.retain.flatMap Retained.entries) (s.link.retain.filterMap Retained.lastOf)) : t.Ordered :=
  ⟨hplaced, by rwa [hretain]⟩

/-- The link alone has changed, and it retains what it did. -/
theorem State.Ordered.modLink {s : State} (hs : s.Ordered) {f : HostLink → HostLink} (hf : (f s.link).retain = s.link.retain) :
    (s.modLink f).Ordered :=
  .of_retain hs.1 hf (Stays.inOrder {} hs.2)

theorem State.ordered_of_empty {t : State} (hframes : t.store.frames = []) (htags : t.tags = []) (hrejects : t.rejects = [])
    (hcompletion : t.completion = []) (hretain : t.link.retain = [])
    (hlines : ∀ m, ∃ carrier clear, t.line m = Line.reset carrier clear) : t.Ordered := by
  refine ⟨fun m => ?_, ?_⟩
  · obtain ⟨carrier, clear, hline⟩ := hlines m
    rw [hline]
    exact (Line.reset_laws carrier clear).2.1
  · rw [hretain]
    refine (custody_of_empty hframes htags hrejects hcompletion fun m x => ?_).inOrder_nil
    obtain ⟨carrier, clear, hline⟩ := hlines m
    rw [hline]
    cases x <;> rfl

theorem ordered_sendNewOrAck (atTick : Bool) {s : State} (hs : s.Ordered) : (sendNewOrAck atTick s).Ordered := by
  have hack : (sendAckIfDue s).Ordered := by
    unfold sendAckIfDue
    split
    · exact hs.modLink rfl
    · exact hs
  unfold sendNewOrAck
  split
  · split
    next c t hformed =>
      obtain ⟨-, hlink⟩ := formRecord_keeps hformed
      have hplaced (m : LineNo) : (t.line m).placed := ((calm_formRecord hformed).lines m).keeps.placed (hs.1 m)
      have hretain : (sendNew atTick c t).link.retain = s.link.retain ++ [{ seq := t.link.vS, content := c }] := by
        rw [← hlink]
        rfl
      refine ⟨hplaced, ?_⟩
      rw [hretain, List.flatMap_append, List.filterMap_append]
      have hsent : (sendNew atTick c t).InOrder _ _ := Stays.inOrder {} (inOrder_formRecord hformed t.link.vS hs.2)
      have hlast : [({ seq := t.link.vS, content := c } : Retained)].filterMap Retained.lastOf =
          (Retained.lastOf { seq := t.link.vS, content := c }).toList := by
        rw [List.filterMap_cons]
        cases Retained.lastOf { seq := t.link.vS, content := c } <;> rfl
      rw [hlast, List.flatMap_singleton]
      exact hsent
    next => exact hack
  · exact hack

theorem ordered_serve (atTick : Bool) {s : State} (hs : s.Ordered) : (serve atTick s).Ordered := by
  have hsend (type : PartType) (seq : Seq) (payload : List Byte) (f : HostLink → HostLink)
      (hf : ∀ h, (f h).retain = h.retain) : ((beginSending type seq payload s).modLink f).Ordered :=
    State.Ordered.modLink (hs.modLink rfl) (hf _)
  unfold serve
  split
  · exact hs
  · split
    · exact hsend .welcome _ _ _ fun _ => rfl
    · exact hsend .resync _ _ _ fun _ => rfl
    · split
      · exact hs
      · unfold chooseUp
        split
        · exact hsend .nak _ _ _ fun _ => rfl
        · split
          · exact ordered_sendNewOrAck atTick hs
          · split
            · exact hsend _ _ _ _ fun _ => rfl
            · unfold sendAckIfDue
              split
              · exact hs.modLink rfl
              · exact hs

theorem retain_acknowledge (h : HostLink) (a : Seq) (room : Byte) : (h.acknowledge a room).retain = h.retain.drop (a - h.vA).toNat := by
  unfold HostLink.acknowledge
  dsimp only
  split
  next hsame => rw [hsame, BitVec.sub_self]; rfl
  next => rfl

/-- Every piece of an event keeps the custody of the frame records. -/
theorem kept_ordered : Kept State.Ordered where
  queue rest hs := .of_retain hs.1 rfl (Stays.inOrder {} hs.2)
  power rate s _ := State.ordered_of_empty rfl rfl rfl rfl rfl fun m => ⟨_, _, Vector.getElem_map ..⟩
  rst hs := .of_retain hs.1 rfl (Stays.inOrder {} hs.2)
  levels {s} n f hrst hf hs := by
    refine .of_retain (kept_placed.levels n f hrst hf hs.1) rfl (Stays.inOrder (Stays.modLine s n fun x => ?_) hs.2)
    rw [hf]
    cases x <;> rfl
  serve atTick hs := ordered_serve atTick hs
  reception _ _ hs := hs.modLink rfl
  tick hrunning hs := .of_retain (kept_placed.tick hrunning hs.1) rfl (inOrder_countTick hs.2)
  offer hs := hs.modLink rfl
  stall _ _ hs := hs.modLink rfl
  finish hs := hs.modLink rfl
  reply r _ hs := .of_retain hs.1 rfl (inOrder_joinReply r hs.2)
  body {s} c tag ps hlength hroom hs := by
    by_cases hc : c = .resetDevice
    · subst hc
      exact State.ordered_of_empty rfl rfl rfl rfl rfl fun m => ⟨_, _, Vector.getElem_map ..⟩
    · refine .of_retain (kept_placed.body c tag ps hlength hroom hs.1) ?_ (inOrder_commandBody hc tag ps hs.1 hs.2)
      rcases link_commandBody hc tag ps s with hlink | hlink
      · rw [hlink]
      · rw [hlink]
        rfl
  stray hs := .of_retain hs.1 rfl (Stays.inOrder {} hs.2)
  reject ht hs := .of_retain (kept_placed.reject ht hs.1) (by rw [link_rejectFirst ht]) (inOrder_rejectFirst ht hs.2)
  first atTick hcheck hs :=
    .of_retain (kept_placed.first atTick hcheck hs.1) (by rw [((lineSide_acceptFirst ..).trans (lineSide_settleLine ..)).link])
      ((acts_acceptFirst hcheck).inOrder_settleLine hs.1 atTick (inOrder_acceptFirst hcheck hs.2))
  later {s} atTick g hs :=
    .of_retain (kept_placed.later atTick g hs.1) (by rw [(lineSide_settleAt ..).link, link_laterSegment])
      (inOrder_settleAt atTick _ (fun m => ((calm_laterSegment g s).lines m).keeps.placed (hs.1 m)) (inOrder_laterSegment g hs.2))
  settle n hs := .of_retain (kept_placed.settle n hs.1) (by rw [(lineSide_settleLine ..).link]) (inOrder_settleLine false (hs.1 n) hs.2)
  owing hs := hs.modLink rfl
  heard _ hs := hs.modLink (by unfold HostLink.restartSilence; split <;> rfl)
  missed hs := hs.modLink rfl
  release {s b a} room hup ha hs := by
    refine ⟨kept_placed.release room hup ha hs.1, ?_⟩
    rw [link_releaseRecords]
    refine inOrder_releaseRecords _ (Stays.inOrder (s := s) {} ?_)
    show s.InOrder (_ ++ (s.link.acknowledge a room).retain.flatMap _) (_ ++ (s.link.acknowledge a room).retain.filterMap _)
    rw [retain_acknowledge, ← List.flatMap_append, ← List.filterMap_append, List.take_append_drop]
    exact hs.2
  nak _ _ _ _ ht := ht.modLink (by split <;> rfl)
  judge kind r hs := hs.modLink (by
    unfold HostLink.judgeSequenced HostLink.makeNak
    dsimp only
    split_ifs <;> rfl)
  linkReset {s r p} hp hs := by
    refine ⟨kept_placed.linkReset hp hs.1, ?_⟩
    have hrewound : (s.link.retain.foldl rewindRecord s).InOrder [] [] :=
      foldl_keeps (P := fun t => t.InOrder [] []) (fun _ k ht => inOrder_rewindRecord k ht) _ hs.2.forget
    exact Stays.inOrder (s := rewindReceive (s.link.retain.foldl rewindRecord s)) {} (inOrder_rewindReceive hrewound)
  retransmission _ _ hs := hs.modLink (by
    unfold HostLink.retransExpiry
    dsimp only
    split <;> rfl)
  silence hs := hs.modLink rfl
  sendingEnd hs := hs.modLink rfl
  line {s t n atTick} hrunning heffect hs :=
    .of_retain (kept_placed.line hrunning heffect hs.1) (by rw [(heffect.lineSide.trans (lineSide_settleLine ..)).link])
      (heffect.acts.inOrder_settleLine hs.1 atTick (heffect.inOrder (hs.1 n) hs.2))

/-- Settles O59: the lines stay placed and bounded by the laws of their pieces; the custody of the frame records is kept list by
list, each piece moving a record from the list of its state to the list of its new state. -/
theorem linesStayPlacedAndBounded : Obligations.LinesStayPlacedAndBounded := by
  refine ⟨fun s t hs hstep => kept_placed_bounded.step (P := fun s => ∀ n, (s.line n).placed ∧ (s.line n).bounded) hs hstep,
    fun s t htables hplaced hcustody hretained hstep => ?_⟩
  have hs : s.Ordered := ⟨hplaced, (custodyKept_iff htables).mp hcustody, (retainedKept_iff s).mp hretained⟩
  obtain ⟨-, ht⟩ := kept_ordered.step hs hstep
  have htables' : t.tablesKept := chainsAndTablesKept.2 s t htables hstep
  exact ⟨(custodyKept_iff htables').mpr ht.custody, (retainedKept_iff t).mpr ht.awaits⟩

end Sys2Proof.Machine

end
